-- ==== Sys2Proof/Word.lean ====
section
/-! DEFINITION. The plain word types of the sliding-window ARQ core (spec/00_scope.md R10 and R13): bytes, byte
strings and packets. Sequence numbers, slots and counts are natural numbers, as R10 and R13 have them
("unsigned integers in [0, MAX_SEQ]"); their ranges are stated by `State.Wf` in Safety.lean. -/

namespace Sys2Proof

/-- A byte: 8 bits, bit 7 the most significant (R10). -/
abbrev Byte := BitVec 8

/-- `Bytes`: a finite byte string of any length, first byte index 0 (R10, R13). -/
abbrev Bytes := List Byte

/-- `Packet`: a byte string of length PKT_LEN (R13). The length is a check of WellFormed (for an event's packet) and
of `State.Wf` (for the packets the buffers hold), not a part of the type. -/
abbrev Packet := List Byte

/-- The 32-bit checksum value (R8). -/
abbrev Word32 := BitVec 32

end Sys2Proof
end

