-- ==== Sys2Proof/Config.lean ====
section
/-! DEFINITION. The implementation parameters of spec/00_scope.md R6 to R9 and of the table "Open parameters" of
spec/92_eei_decisions.md, as one record that every operation of the model takes as an argument, and `Config.hw`,
the configuration of this hardware: n = 4 (R6), every parameter that the spec leaves OPEN an opaque constant of
which nothing can be proved beyond what the spec says of it. -/

namespace Sys2Proof

/-- CKSUM_ORDER: the order of the four checksum bytes on the wire (R8, R55). -/
inductive ByteOrder where
  | le
  | be
  deriving DecidableEq, Repr, Inhabited

/-- ACK_REARM: what re-arming a running ack-delay timer does (R222). It is a parameter of the timer service; in a
model that keeps no time (R225, R261) both values leave the timer armed. -/
inductive AckRearm where
  | restart
  | keep
  deriving DecidableEq, Repr, Inhabited

/-- The two packet buffers that `MemRead` and `MemWrite` name (R11, R50). -/
inductive Buf where
  | outBuf
  | inBuf
  deriving DecidableEq, Repr, Inhabited

/-- The parameters of a build (R6 to R9, R34: "constants of a build, not registers"). -/
structure Config where
  /-- n, the bits of a sequence number (R6). -/
  n : Nat
  /-- PKT_LEN (R7). -/
  pktLen : Nat
  /-- KIND_DATA (R9, R74). -/
  kindData : Byte
  /-- KIND_ACK (R9, R74). -/
  kindAck : Byte
  /-- KIND_NAK (R9, R74). -/
  kindNak : Byte
  /-- Cksum, a total function of its argument bytes and nothing more (R8, R122). -/
  cksum : Bytes → Word32
  /-- CKSUM_ORDER (R8, R55). -/
  cksumOrder : ByteOrder
  /-- DATA_TIMER, the duration that goes with START_TIMER (R9, R225). -/
  dataTimer : Nat
  /-- ACK_TIMER, the duration that goes with START_ACK_TIMER (R9, R225). -/
  ackTimer : Nat
  /-- ACK_REARM (R222). -/
  ackRearm : AckRearm
  /-- Byte `k` of slot `i` of a packet buffer right after reset: "unspecified" (R24, R28, R41, U8 of
  spec/93_implementation_defined.md). -/
  powerUp : Buf → Nat → Nat → Byte
  /-- Whether the physical layer, when the collaborators act on their own for the `k`-th time, puts the frame that stands at
  place `j` of those waiting on the wire: when it does is not specified (R223, R259; log entry 16). -/
  phySends : Nat → Nat → Bool
  /-- Whether the network layer, when the collaborators act on their own for the `k`-th time, comes by a packet to send: the
  spec leaves it to the environment (R40, R224; log entry 16). -/
  netOffers : Nat → Bool
  /-- The physical layer's readiness level after the collaborators have acted on their own for the `k`-th time: it "may change
  at any time" (R223; log entry 16). -/
  phyLevel : Nat → Bool

namespace Config

/-- M = 2^n, the size of the sequence space (R6). -/
def M (c : Config) : Nat := 2 ^ c.n

/-- MAX_SEQ = M − 1 (R6). -/
def maxSeq (c : Config) : Nat := c.M - 1

/-- W = M / 2, the window size and the number of slots (R6). -/
def W (c : Config) : Nat := c.M / 2

/-- DATA_LEN = 3 + PKT_LEN + 4 (R7, R71). -/
def dataLen (c : Config) : Nat := 3 + c.pktLen + 4

/-- CTRL_LEN = 2 + 4 (R7, R72, R73). -/
abbrev ctrlLen : Nat := 6

/-- MIN_LEN (R7, R124). -/
abbrev minLen : Nat := 6

/-- The bits of an event header. For n = 4 it is one byte (R80). "For other n the slot field has n − 1 bits starting
at bit 4 and the header grows as needed": here to the next whole byte that still holds one reserved bit
(DESIGN CHOICE for n other than 4, log entry 4). -/
def hdrBits (c : Config) : Nat := 8 * ((c.n + 11) / 8)

/-- What the spec says of the parameters: n ≥ 1 (R6), PKT_LEN positive (R7), three distinct kind bytes (R9, R74); and
n ≤ 8, since a sequence number is zero-extended to one byte (R71; DEDUCED, log entry 3). -/
structure Legal (c : Config) : Prop where
  n_pos : 1 ≤ c.n
  n_le : c.n ≤ 8
  pktLen_pos : 1 ≤ c.pktLen
  data_ne_ack : c.kindData ≠ c.kindAck
  data_ne_nak : c.kindData ≠ c.kindNak
  ack_ne_nak : c.kindAck ≠ c.kindNak

/-- One less than this hardware's PKT_LEN, OPEN (R7): the packet length is any positive number. -/
opaque openPktLenPred : Nat

/-- This hardware's kind bytes, OPEN (R74): an unknown permutation of the byte values, of which `hw` uses the images
of 1, 2 and 3. Every triple of distinct bytes is such an image, and no other is. -/
opaque openKindCodes : Equiv.Perm (BitVec 8)

/-- This hardware's checksum function, OPEN (R8, R122: kept uninterpreted). -/
opaque openCksum : Bytes → Word32

/-- This hardware's checksum byte order, OPEN (R55). -/
opaque openCksumOrder : ByteOrder

/-- This hardware's DATA_TIMER, OPEN (R9). -/
opaque openDataTimer : Nat

/-- This hardware's ACK_TIMER, OPEN (R9). -/
opaque openAckTimer : Nat

/-- This hardware's ACK_REARM, OPEN (R222). -/
opaque openAckRearm : AckRearm

/-- What the packet buffers hold right after reset, unspecified (R41): a free value for every byte. -/
opaque openPowerUp : Buf → Nat → Nat → Byte

/-- When this hardware's physical layer puts a waiting frame on the wire, unspecified (R223, R259): a free value each
time. -/
opaque openPhySends : Nat → Nat → Bool

/-- When the network layer comes by a packet, unspecified (R40, R224): a free value each time. -/
opaque openNetOffers : Nat → Bool

/-- The readiness level of this hardware's physical layer as time goes on, unspecified (R223): a free value each time. -/
opaque openPhyLevel : Nat → Bool

/-- The configuration of this hardware: n = 4, M = 16, MAX_SEQ = 15, W = 8 (R6); the rest OPEN. -/
def hw : Config where
  n := 4
  pktLen := openPktLenPred + 1
  kindData := openKindCodes 1
  kindAck := openKindCodes 2
  kindNak := openKindCodes 3
  cksum := openCksum
  cksumOrder := openCksumOrder
  dataTimer := openDataTimer
  ackTimer := openAckTimer
  ackRearm := openAckRearm
  powerUp := openPowerUp
  phySends := openPhySends
  netOffers := openNetOffers
  phyLevel := openPhyLevel

end Config

end Sys2Proof
end

