-- ==== Sys2Proof/Syntax.lean ====
section
/-! DEFINITION. The events of the core as syntax: the event header, the event word (header and at most one data
operand, spec/30_encoding.md R80) and `Instr`, one constructor per row of spec/opcode_table.json. -/

namespace Sys2Proof

/-- The fields of an event header besides the opcode (R80). -/
structure Header where
  /-- Bit 3: the physical layer's readiness level sampled with the event (R80, R196). -/
  phl : Bool
  /-- Bits 6:4 for n = 4: the slot whose timer fired (DATA_TIMEOUT); ignored by the core (R80, R145). -/
  slot : Nat
  /-- Bit 7 for n = 4, the bits above the slot field: "written 0 by the environment, ignored by the core" (R80). -/
  reserved : Nat
  deriving DecidableEq, Repr

/-- An event as it is presented to the core: "a header and at most one data operand" (R80). -/
structure EventWord where
  /-- The header word; for n = 4 one byte, bit 0 the least significant. -/
  header : Nat
  /-- The data operand: a Packet for NET_READY, a byte string for FRAME_RX, absent for the other events. -/
  operand : Option Bytes
  deriving DecidableEq, Repr

/-- The rows of spec/opcode_table.json. FRAME_RX has four: the three validated frame kinds (R83) and `frameRx` for an
operand as a plain byte string. The decoder gives `frameRx` for exactly the operands that are no frame (a decode
error or malformed); the meaning of `frameRx` is that of R193 for every byte string. -/
inductive Instr where
  /-- NET_READY (op 0, R191). -/
  | netReady (h : Header) (p : Packet)
  /-- PHY_READY (op 1, R192). -/
  | phyReady (h : Header)
  /-- FRAME_RX (op 2, R193) with the received byte string. -/
  | frameRx (h : Header) (b : Bytes)
  /-- DATA_TIMEOUT (op 3, R194). -/
  | dataTimeout (h : Header)
  /-- ACK_TIMEOUT (op 4, R195). -/
  | ackTimeout (h : Header)
  /-- Reserved opcode 5 (R82). -/
  | reservedEvent5 (h : Header) (operand : Option Bytes)
  /-- Reserved opcode 6 (R82). -/
  | reservedEvent6 (h : Header) (operand : Option Bytes)
  /-- Reserved opcode 7 (R82). -/
  | reservedEvent7 (h : Header) (operand : Option Bytes)
  /-- FRAME_RX of a validated DATA frame (R71, R83, R193). -/
  | frameRxData (h : Header) (ack seq : Nat) (payload : Packet)
  /-- FRAME_RX of a validated ACK frame (R72, R83, R193). -/
  | frameRxAck (h : Header) (ack : Nat)
  /-- FRAME_RX of a validated NAK frame (R73, R83, R193). -/
  | frameRxNak (h : Header) (ack : Nat)
  deriving DecidableEq, Repr

/-- The header of an event. -/
def Instr.header : Instr → Header
  | .netReady h _ => h
  | .phyReady h => h
  | .frameRx h _ => h
  | .dataTimeout h => h
  | .ackTimeout h => h
  | .reservedEvent5 h _ => h
  | .reservedEvent6 h _ => h
  | .reservedEvent7 h _ => h
  | .frameRxData h _ _ _ => h
  | .frameRxAck h _ => h
  | .frameRxNak h _ => h

/-- The event opcode, header bits 2:0 (R80, R81). -/
def Instr.op : Instr → Nat
  | .netReady _ _ => 0
  | .phyReady _ => 1
  | .frameRx _ _ => 2
  | .dataTimeout _ => 3
  | .ackTimeout _ => 4
  | .reservedEvent5 _ _ => 5
  | .reservedEvent6 _ _ => 6
  | .reservedEvent7 _ _ => 7
  | .frameRxData _ _ _ _ => 2
  | .frameRxAck _ _ => 2
  | .frameRxNak _ _ => 2

end Sys2Proof
end

