-- ==== Sys2Proof/Machine/Codec.lean ====
section
/-! DEFINITION. The frame codec (spec/42_frame_codec.md, wire layouts of spec/30_encoding.md R70 to R78, checksum byte
order of spec/20_memory.md R55): `encodeFrame`, `decodeAndValidate`, and the suggested checksum CRC-32 (R132). -/

namespace Sys2Proof.Machine

/-- A frame: "{kind, ack, seq (DATA only), payload (DATA only)}" (R13, R70). -/
inductive Frame where
  | data (ack seq : Nat) (payload : Packet)
  | ack (ack : Nat)
  | nak (ack : Nat)
  deriving DecidableEq, Repr

/-- The ack field, which every kind carries (R76). -/
def Frame.ackField : Frame → Nat
  | .data a _ _ => a
  | .ack a => a
  | .nak a => a

/-- The two causes of a decode error, kept apart for diagnosis only (R124, R125, R212). -/
inductive DecodeErrorCause where
  | short
  | cksum
  deriving DecidableEq, Repr

/-- The three ways a byte string with a valid checksum can fail to be a frame (R126, R127, R128). -/
inductive MalformedCause where
  | kind
  | length
  | field
  deriving DecidableEq, Repr

/-- The result of `decode_and_validate` (R123). -/
inductive DecodeResult where
  | ok (f : Frame)
  | decodeError (e : DecodeErrorCause)
  | malformed (e : MalformedCause)
  deriving DecidableEq, Repr

/-- `CkBytes(c)`: the four checksum bytes in wire order (R55, R121). -/
def ckBytes (o : ByteOrder) (v : Word32) : Bytes :=
  match o with
  | .le => [v.extractLsb' 0 8, v.extractLsb' 8 8, v.extractLsb' 16 8, v.extractLsb' 24 8]
  | .be => [v.extractLsb' 24 8, v.extractLsb' 16 8, v.extractLsb' 8 8, v.extractLsb' 0 8]

/-- Byte `i` of a byte string (R10); the codec reads only bytes that exist. -/
def byteAt (b : Bytes) (i : Nat) : Byte := b.getD i 0

/-- `CkValue(b)`: the inverse of `ckBytes` on a four-byte string (R121). -/
def ckValue (o : ByteOrder) (b : Bytes) : Word32 :=
  match o with
  | .le => byteAt b 3 ++ byteAt b 2 ++ byteAt b 1 ++ byteAt b 0
  | .be => byteAt b 0 ++ byteAt b 1 ++ byteAt b 2 ++ byteAt b 3

/-- A sequence number as a wire byte: zext_8 (R71, R76). -/
def seqByte (s : Nat) : Byte := BitVec.ofNat 8 s

/-- The bytes of a frame before its checksum (R71, R72, R73, R120). -/
def frameBody (c : Config) : Frame → Bytes
  | .data a s p => [c.kindData, seqByte a, seqByte s] ++ p
  | .ack a => [c.kindAck, seqByte a]
  | .nak a => [c.kindNak, seqByte a]

/-- `encode(kind, ack, seq, payload)` (R120): the body followed by the checksum over all of it. -/
def encodeFrame (c : Config) (f : Frame) : Bytes :=
  frameBody c f ++ ckBytes c.cksumOrder (c.cksum (frameBody c f))

/-- `decode_and_validate(b)` (R123): the checks in the order the spec gives, the first that fails deciding. -/
def decodeAndValidate (c : Config) (b : Bytes) : DecodeResult :=
  if b.length < Config.minLen then .decodeError .short
  else if c.cksum (b.take (b.length - 4)) ≠ ckValue c.cksumOrder (b.drop (b.length - 4)) then .decodeError .cksum
  else if byteAt b 0 ≠ c.kindData ∧ byteAt b 0 ≠ c.kindAck ∧ byteAt b 0 ≠ c.kindNak then .malformed .kind
  else if byteAt b 0 = c.kindData ∧ b.length ≠ c.dataLen then .malformed .length
  else if byteAt b 0 ≠ c.kindData ∧ b.length ≠ Config.ctrlLen then .malformed .length
  else if (byteAt b 1).toNat > c.maxSeq then .malformed .field
  else if byteAt b 0 = c.kindData ∧ (byteAt b 2).toNat > c.maxSeq then .malformed .field
  else if byteAt b 0 = c.kindData then
    .ok (.data (byteAt b 1).toNat (byteAt b 2).toNat ((b.drop 3).take c.pktLen))
  else if byteAt b 0 = c.kindAck then .ok (.ack (byteAt b 1).toNat)
  else .ok (.nak (byteAt b 1).toNat)

/-- A frame that the codec can carry: fields in [0, MAX_SEQ], a payload of PKT_LEN bytes (R13, R78). -/
def Frame.wf (c : Config) : Frame → Bool
  | .data a s p => decide (a ≤ c.maxSeq) && decide (s ≤ c.maxSeq) && decide (p.length = c.pktLen)
  | .ack a => decide (a ≤ c.maxSeq)
  | .nak a => decide (a ≤ c.maxSeq)

/-- One of the eight shifts of a byte in CRC-32 (R132). -/
def crcShift (r : Word32) : Word32 :=
  if r.getLsbD 0 then (r >>> 1) ^^^ 0xEDB88320#32 else r >>> 1

/-- The eight shifts that follow the exclusive-or with a byte (R132). -/
def crcByte (r : Word32) (v : Byte) : Word32 :=
  crcShift (crcShift (crcShift (crcShift (crcShift (crcShift (crcShift (crcShift (r ^^^ v.setWidth 32))))))))

/-- The suggested Cksum, CRC-32 (R132). It is an instance for the spec's test vectors, never this hardware's own. -/
def crc32 (b : Bytes) : Word32 := b.foldl crcByte 0xFFFFFFFF#32 ^^^ 0xFFFFFFFF#32

/-- The configuration of the spec's test vectors (spec/95_test_vectors.md): kind codes 1, 2, 3, CRC-32, LE. The buffers'
contents at reset are zero here only because an instance has to have some. -/
def suggestedConfig (n pktLen : Nat) : Config where
  n := n
  pktLen := pktLen
  kindData := 1
  kindAck := 2
  kindNak := 3
  cksum := crc32
  cksumOrder := .le
  dataTimer := 0
  ackTimer := 0
  ackRearm := .restart
  powerUp := fun _ _ _ => 0
  phySends := fun _ _ => true
  netOffers := fun _ => false
  phyLevel := fun _ => true

end Sys2Proof.Machine
end

