-- ==== Sys2Proof/Machine/State.lean ====
section
/-! DEFINITION. The state of a station (spec/10_state.md): the ten registers and arrays and the FAULT register of the core
(R20 to R31), the output commands of the last event (R84), the events the dispatcher has presented and the core has
not yet handled (R60), and the collaborators' state that R40 lists, as the contracts R221 to R224 give it; the state
after reset (R41, R250, R251); and the reasons a step can stop. -/

namespace Sys2Proof.Machine

/-- FAULT.cause (R31): the codes 0, 1, 2, 3 in this order. -/
inductive FaultCause where
  | none
  | admissionOverrun
  | ledgerDoubleEntry
  | timeoutNoPending
  deriving DecidableEq, Repr

/-- The FAULT register (R31): `halted` is bit 2, `cause` is bits 1:0. -/
structure FaultReg where
  halted : Bool
  cause : FaultCause
  deriving DecidableEq, Repr

/-- The output commands, with the codes 0 to 7 in this order (R84). -/
inductive Command where
  /-- TX of one encoded frame, to the physical layer. -/
  | tx (b : Bytes)
  /-- DELIVER of a packet, to the network layer. -/
  | deliver (p : Packet)
  /-- START_TIMER of a slot, to the timer service. -/
  | startTimer (slot : Nat)
  /-- STOP_TIMER of a slot, to the timer service. -/
  | stopTimer (slot : Nat)
  /-- START_ACK_TIMER, to the timer service. -/
  | startAckTimer
  /-- STOP_ACK_TIMER, to the timer service. -/
  | stopAckTimer
  /-- RESUME_ADMISSION, to the network layer. -/
  | resumeAdmission
  /-- SUSPEND_ADMISSION, to the network layer. -/
  | suspendAdmission
  deriving DecidableEq, Repr

/-- The state outside the core that its events depend on and that it cannot read (R40), kept by the contracts R221 to
R224, with what has left it (`onWire`, `delivered`) as histories. -/
structure Env where
  /-- For each slot, whether its retransmission timer is armed (R40, R221). -/
  timers : List Bool
  /-- Whether the ack-delay timer is armed (R40, R222). -/
  ackTimer : Bool
  /-- The physical layer's readiness level `phl_ready` (R40, R196); it "may change at any time" (R223). -/
  phlReady : Bool
  /-- How many times the level has become true without its PHY_READY having been delivered yet (R223). -/
  phyDue : Nat
  /-- Whether the network layer's admission is resumed (R224). -/
  netResumed : Bool
  /-- Whether the network layer has a packet waiting, which may be so while admission is suspended (R40, R224). -/
  netWaiting : Bool
  /-- "The frames the physical layer has accepted and not yet put on the wire" (R40, R223), oldest first. -/
  accepted : List Bytes
  /-- The frames the physical layer has put on the wire, in that order; no rule reads it (log entry 9). -/
  onWire : List Bytes
  /-- The packets delivered to the network layer, oldest first (R61, R224). -/
  delivered : List Packet
  /-- START_TIMER has been issued on an armed timer: "in an environment model, stuck" (R221, U20). -/
  doubleStart : Bool
  /-- How many times the collaborators have acted on their own: the model's own counter, which picks the free values
  `Config.phySends`, `Config.netOffers` and `Config.phyLevel` (log entry 16). -/
  moments : Nat
  deriving DecidableEq, Repr

/-- The state. The first eleven fields are the core's (R20); `out`, `inbox` and `env` are what stands around it (R40,
R43). -/
structure State where
  /-- "Sequence number of the oldest unacknowledged frame" (R21). -/
  ackExpected : Nat
  /-- "Next sequence number to assign" (R22). -/
  nextFrameToSend : Nat
  /-- "Count of frames sent but not yet acknowledged" (R23). -/
  nbuffered : Nat
  /-- The outbound packets, W slots (R24). -/
  outBuf : List Packet
  /-- "Lowest sequence number not yet delivered" (R25). -/
  frameExpected : Nat
  /-- "`frame_expected + W` (exclusive upper edge)", a register of its own (R26). -/
  tooFar : Nat
  /-- The arrival bitmap, W flags (R27). -/
  arrived : List Bool
  /-- The packets awaiting in-order delivery, W slots (R28). -/
  inBuf : List Packet
  /-- "True iff no NAK has been sent since the last successfully delivered frame" (R29). -/
  noNak : Bool
  /-- The timer ledger, head oldest (R30). -/
  ledger : List Nat
  /-- The FAULT register (R31). -/
  faultReg : FaultReg
  /-- The output commands of the last event handled, in order (R61, R84). -/
  out : List Command
  /-- The events presented and not yet handled, in arrival order (R60). -/
  inbox : List EventWord
  /-- The collaborators (R40). -/
  env : Env
  deriving DecidableEq, Repr

/-- The reasons a step stops with a fault. -/
inductive Fault where
  /-- Raised by `step`, never by an instruction: an earlier event left the timer service with START_TIMER on an armed
  timer, after which the environment is stuck (R221, U20: "never issued by the core; in an environment model, stuck").
  Safe: the model stops. No state that satisfies `State.Inv` gets there. -/
  | timerServiceStuck
  deriving DecidableEq, Repr

/-- The reasons a step is refused. -/
inductive Refusal where
  /-- An arm of `exec` without a meaning; no arm of this model answers it. Safe. -/
  | notModelled (mnemonic : String)
  /-- Raised by the reserved opcodes 5, 6 and 7: "its step function refuses them (no next state)" (R82). Safe. -/
  | reservedEvent (op : Nat)
  /-- Raised by `step` where the decoder rejects the presented word, which is no event (R80). Safe. -/
  | undecodable
  /-- Raised by `step` where the decoded term is not well-formed: the packet of a NET_READY does not have PKT_LEN bytes
  (R13, R80), so that it is no event. Safe. -/
  | illFormed
  deriving DecidableEq, Repr

/-- The collaborators right after reset: all timers idle (R221, R222, R252), admission suspended (R224, R251). The rest is the
model's choice. The readiness level is low and no PHY_READY is due (DESIGN CHOICE, log entry 7). No frame waits in
the physical layer's transmit side, which R252 lets be "empty or at least able to accept frames" (DESIGN CHOICE, log entry
16). No packet waits in the network layer, of which the spec says nothing (DESIGN CHOICE, log entry 16). The histories
`onWire` and `delivered`, the mark `doubleStart` and the counter `moments` start empty (DESIGN CHOICE, log entries 9, 10
and 16). -/
def Env.reset (c : Config) : Env where
  timers := List.replicate c.W false
  ackTimer := false
  phlReady := false
  phyDue := 0
  netResumed := false
  netWaiting := false
  accepted := []
  onWire := []
  delivered := []
  doubleStart := false
  moments := 0

/-- A packet buffer right after reset: W packets of PKT_LEN bytes, every byte unspecified (R24, R28, R41). -/
def powerUpBuf (c : Config) (buf : Buf) : List Packet :=
  (List.range c.W).map fun i => (List.range c.pktLen).map fun k => c.powerUp buf i k

/-- The state right after reset, for any build (R41, R250, R251). -/
def State.resetOf (c : Config) : State where
  ackExpected := 0
  nextFrameToSend := 0
  nbuffered := 0
  outBuf := powerUpBuf c .outBuf
  frameExpected := 0
  tooFar := c.W
  arrived := List.replicate c.W false
  inBuf := powerUpBuf c .inBuf
  noNak := true
  ledger := []
  faultReg := { halted := false, cause := .none }
  out := []
  inbox := []
  env := Env.reset c

/-- The state of this hardware right after reset. -/
def State.reset : State := State.resetOf Config.hw

end Sys2Proof.Machine
end

