-- ==== Sys2Proof/Machine/Ops.lean ====
section
/-! DEFINITION. The named operations: sequence arithmetic (spec/40_sequence_arithmetic.md), access to the packet buffers
(spec/20_memory.md R51 to R53), the output list, the timer ledger (spec/41_timer_ledger.md), and taking a fatal fault
(spec/60_exceptions.md R215, R216), from which there is no return (R217). -/

namespace Sys2Proof.Machine

/-! ### Sequence arithmetic -/

/-- `inc(s)` (R100). -/
def inc (c : Config) (s : Nat) : Nat := (s + 1) % c.M

/-- `in_window(low, x, high)`: the three disjoint cases (R101). -/
def inWindow (low x high : Nat) : Bool :=
  (decide (low ≤ x) && decide (x < high)) || (decide (high < low) && decide (low ≤ x))
    || (decide (x < high) && decide (high < low))

/-- `prev(s)` (R103). -/
def prev (c : Config) (s : Nat) : Nat := (s + c.maxSeq) % c.M

/-- `slot(s) = s mod W` (R51, R104). -/
def slot (c : Config) (s : Nat) : Nat := s % c.W

/-- The circular distance `(high − low) mod M` (R36, R102). -/
def dist (c : Config) (low high : Nat) : Nat := (high + c.M - low) % c.M

/-! ### Packet buffers -/

/-- `MemRead(buf, slot)` (R11, R57): one whole packet. Every slot number that a rule forms is below W (R51). -/
def memRead (buf : Buf) (i : Nat) (s : State) : Packet :=
  match buf with
  | .outBuf => s.outBuf.getD i []
  | .inBuf => s.inBuf.getD i []

/-- `MemWrite(buf, slot, v)` (R11, R57): one whole packet. -/
def memWrite (buf : Buf) (i : Nat) (p : Packet) (s : State) : State :=
  match buf with
  | .outBuf => { s with outBuf := s.outBuf.set i p }
  | .inBuf => { s with inBuf := s.inBuf.set i p }

/-! ### Output -/

/-- `emit CMD(args)` (R11). -/
def emit (k : Command) (s : State) : State := { s with out := s.out ++ [k] }

/-- The output list of the event being handled starts empty (R190). -/
def beginEvent (s : State) : State := { s with out := [] }

/-! ### Register writes -/

/-- `ack_expected <- v`. -/
def setAckExpected (v : Nat) (s : State) : State := { s with ackExpected := v }

/-- `next_frame_to_send <- v`. -/
def setNextFrameToSend (v : Nat) (s : State) : State := { s with nextFrameToSend := v }

/-- `nbuffered <- v`. -/
def setNbuffered (v : Nat) (s : State) : State := { s with nbuffered := v }

/-- `frame_expected <- v`. -/
def setFrameExpected (v : Nat) (s : State) : State := { s with frameExpected := v }

/-- `too_far <- v`. -/
def setTooFar (v : Nat) (s : State) : State := { s with tooFar := v }

/-! ### Timer ledger -/

/-- `record(s)` (R111); the caller establishes that `x` does not occur. -/
def record (x : Nat) (s : State) : State := { s with ledger := s.ledger ++ [x] }

/-- `forget(s)` (R112): the first, and only, entry equal to `x`; a no-op if there is none. -/
def forget (x : Nat) (s : State) : State := { s with ledger := s.ledger.erase x }

/-- `oldest()` (R113): the head; `none` on an empty ledger, on which no caller uses it. -/
def oldest (s : State) : Option Nat := s.ledger.head?

/-! ### Fatal faults -/

/-- `raise F(cause)` (R11, R216): "`FAULT.cause <- cause`, `FAULT.halted <- 1` and ends the handler"; nothing else. -/
def raiseFault (cause : FaultCause) (s : State) : State :=
  { s with faultReg := { halted := true, cause := cause } }

end Sys2Proof.Machine
end

