-- ==== Sys2Proof/Machine/Flags.lean ====
section
/-! DEFINITION. The flags: the arrival bitmap (spec/10_state.md R27), `no_nak` (R29), FAULT and its layout (R31), and
`net_enable` (R32, R196), which is an output and not stored. -/

namespace Sys2Proof.Machine

/-- Read of `arrived[i]` (R27). -/
def arrivedBit (i : Nat) (s : State) : Bool := s.arrived.getD i false

/-- `arrived[i] <- v` (R27, R57). -/
def setArrived (i : Nat) (v : Bool) (s : State) : State := { s with arrived := s.arrived.set i v }

/-- `no_nak <- v` (R29). -/
def setNoNak (v : Bool) (s : State) : State := { s with noNak := v }

/-- The code of FAULT.cause (R31). -/
def FaultCause.code : FaultCause → BitVec 2
  | .none => 0
  | .admissionOverrun => 1
  | .ledgerDoubleEntry => 2
  | .timeoutNoPending => 3

/-- FAULT as a word: halted bit 2, cause bits 1:0 (R31). -/
def FaultReg.bits (f : FaultReg) : BitVec 3 := BitVec.ofBool f.halted ++ f.cause.code

/-- `net_enable` (R32, R196). -/
def netEnable (c : Config) (phl : Bool) (s : State) : Bool :=
  !s.faultReg.halted && decide (s.nbuffered < c.W) && phl

/-- `Gate(phl)` (R196): exactly one of the two commands. -/
def gate (c : Config) (phl : Bool) (s : State) : State :=
  emit (if netEnable c phl s then .resumeAdmission else .suspendAdmission) s

end Sys2Proof.Machine
end

