-- ==== Sys2Proof/Machine/Collaborators.lean ====
section
/-! DEFINITION. What the output commands and the delivery of an event do to the collaborators: the assumed contracts of
spec/60_exceptions.md R221 to R224, over the environment state of spec/10_state.md R40. The core reads none of it. -/

namespace Sys2Proof.Machine

/-- Whether the retransmission timer of a slot is armed (R221). -/
def Env.armed (i : Nat) (e : Env) : Bool := e.timers.getD i false

/-- START_TIMER(i) (R221): arms an idle timer; on an armed one it "is a violation" and leaves the service stuck (U20). -/
def Env.startTimer (i : Nat) (e : Env) : Env :=
  if e.armed i then { e with doubleStart := true } else { e with timers := e.timers.set i true }

/-- STOP_TIMER(i) (R221): idle; "a no-op on an idle timer". -/
def Env.stopTimer (i : Nat) (e : Env) : Env := { e with timers := e.timers.set i false }

/-- One command performed by the collaborator it is addressed to (R84, R221 to R224). -/
def Env.performOne (e : Env) : Command → Env
  | .tx b => { e with accepted := e.accepted ++ [b] }
  | .deliver p => { e with delivered := e.delivered ++ [p] }
  | .startTimer i => e.startTimer i
  | .stopTimer i => e.stopTimer i
  | .startAckTimer => { e with ackTimer := true }
  | .stopAckTimer => { e with ackTimer := false }
  | .resumeAdmission => { e with netResumed := true }
  | .suspendAdmission => { e with netResumed := false }

/-- The commands of an event, in list order (R61). -/
def Env.perform (ks : List Command) (e : Env) : Env := ks.foldl Env.performOne e

/-- The delivery of a DATA_TIMEOUT: the timer of the slot it names "becomes idle" (R221). -/
def Env.dataTimerExpired (i : Nat) (e : Env) : Env := e.stopTimer i

/-- The delivery of an ACK_TIMEOUT: the ack-delay timer "becomes idle" (R222). -/
def Env.ackTimerExpired (e : Env) : Env := { e with ackTimer := false }

/-- The readiness level is now `level`; where it "becomes true", a PHY_READY event is due (R223). -/
def Env.levelIs (level : Bool) (e : Env) : Env :=
  { e with phlReady := level, phyDue := if level && !e.phlReady then e.phyDue + 1 else e.phyDue }

/-- The level sampled with an event is the level at that time (R196, R223). -/
def Env.sampled (phl : Bool) (e : Env) : Env := e.levelIs phl

/-- The delivery of a PHY_READY (R223): the earliest rise of the level that is due has been announced; with none due, the level
has become true just now. -/
def Env.riseAnnounced (e : Env) : Env :=
  { e with phlReady := e.phlReady || decide (e.phyDue = 0), phyDue := e.phyDue - 1 }

/-- The delivery of a NET_READY: the packet that was waiting is handed over as its operand (R224). -/
def Env.packetTaken (e : Env) : Env := { e with netWaiting := false }

/-- The entries of a list whose places `b` picks, in their order. -/
def picked (b : Nat → Bool) (l : List Bytes) : List Bytes := (l.zipIdx.filter fun x => b x.2).map Prod.fst

/-- What the collaborators do on their own: the physical layer puts some of the waiting frames on the wire (R223), and the
network layer may come by a packet (R224), and the readiness level may change (R223); all of it free values (log entry 16). A timer that expires
does so with the delivery of its event (R221, R222). -/
def Env.elapse (c : Config) (e : Env) : Env :=
  { e.levelIs (c.phyLevel e.moments) with
    accepted := picked (fun j => !c.phySends e.moments j) e.accepted
    onWire := e.onWire ++ picked (c.phySends e.moments) e.accepted
    netWaiting := e.netWaiting || c.netOffers e.moments
    moments := e.moments + 1 }

/-- The collaborators after an event: the level sampled, the event's commands performed (R61), then what the collaborators do
on their own until the next. -/
def settle (c : Config) (phl : Bool) (s : State) : State :=
  { s with env := ((s.env.sampled phl).perform s.out).elapse c }

/-- The core waits (R33, R59): only the collaborators act. -/
def idle (c : Config) (s : State) : State := { s with env := s.env.elapse c }

end Sys2Proof.Machine
end

