-- ==== Sys2Proof/Machine/Operands.lean ====
section
/-! DEFINITION. The operand forms: the ack value that every outgoing frame carries (spec/45_ack_arbiter.md R175), the frame
a NAK asks for (spec/30_encoding.md R77), and the output commands as the boundary calls they stand for (R84). -/

namespace Sys2Proof.Machine

/-- `AckValue()` (R175): the number of the last packet delivered in order. -/
def ackValue (c : Config) (s : State) : Nat := prev c s.frameExpected

/-- The frame a NAK with ack field `a` asks for (R77). -/
def nakTarget (c : Config) (a : Nat) : Nat := inc c a

/-- The code of an output command (R84). -/
def Command.code : Command → Nat
  | .tx _ => 0
  | .deliver _ => 1
  | .startTimer _ => 2
  | .stopTimer _ => 3
  | .startAckTimer => 4
  | .stopAckTimer => 5
  | .resumeAdmission => 6
  | .suspendAdmission => 7

/-- Who a command is addressed to (R84). -/
inductive Collaborator where
  | physicalLayer
  | networkLayer
  | timerService
  deriving DecidableEq, Repr

/-- The collaborator column of R84. -/
def Command.collaborator : Command → Collaborator
  | .tx _ => .physicalLayer
  | .deliver _ => .networkLayer
  | .startTimer _ => .timerService
  | .stopTimer _ => .timerService
  | .startAckTimer => .timerService
  | .stopAckTimer => .timerService
  | .resumeAdmission => .networkLayer
  | .suspendAdmission => .networkLayer

/-- The document's boundary calls, with the durations that START_TIMER and START_ACK_TIMER imply (R84). -/
inductive BoundaryCall where
  | transmit (b : Bytes)
  | deliverInboundPacket (p : Packet)
  | startTimer (slot duration : Nat)
  | stopTimer (slot : Nat)
  | startAckDelayTimer (duration : Nat)
  | stopAckDelayTimer
  | resumeAdmission
  | suspendAdmission
  deriving DecidableEq, Repr

/-- The call a command stands for (R84). -/
def Command.call (c : Config) : Command → BoundaryCall
  | .tx b => .transmit b
  | .deliver p => .deliverInboundPacket p
  | .startTimer i => .startTimer i c.dataTimer
  | .stopTimer i => .stopTimer i
  | .startAckTimer => .startAckDelayTimer c.ackTimer
  | .stopAckTimer => .stopAckDelayTimer
  | .resumeAdmission => .resumeAdmission
  | .suspendAdmission => .suspendAdmission

end Sys2Proof.Machine
end

