-- ==== Sys2Proof/Machine/Receiver.lean ====
section
/-! DEFINITION. The receiver window and the ack arbiter (spec/44_receiver_window.md R160 to R165, spec/45_ack_arbiter.md
R178 to R181). -/

namespace Sys2Proof.Machine

/-- `SendNak()` (R165). -/
def sendNak (c : Config) (s : State) : State :=
  setNoNak false (emit (.tx (encodeFrame c (.nak (ackValue c s)))) s)

/-- `SendAck()` (R178). -/
def sendAck (c : Config) (s : State) : State :=
  emit (.tx (encodeFrame c (.ack (ackValue c s)))) s

/-- `DataArrive(f)`, part 1 (R160): a NAK, or the ack-delay timer armed. -/
def nakOrDelay (c : Config) (x : Nat) (s : State) : State :=
  if x ≠ s.frameExpected ∧ s.noNak = true then sendNak c s else emit .startAckTimer s

/-- One round of `Drain()` (R162). -/
def drainOne (c : Config) (s : State) : State :=
  let s1 := emit (.deliver (memRead .inBuf (slot c s.frameExpected) s)) s
  let s2 := setNoNak true s1
  let s3 := setArrived (slot c s2.frameExpected) false s2
  let s4 := setFrameExpected (inc c s3.frameExpected) s3
  let s5 := setTooFar (inc c s4.tooFar) s4
  emit .startAckTimer s5

/-- The loop of `Drain()` (R162), with a bound on its rounds. -/
def drainLoop (c : Config) : Nat → State → State
  | 0, s => s
  | k + 1, s => if arrivedBit (slot c s.frameExpected) s then drainLoop c k (drainOne c s) else s

/-- `Drain()` (R162): "the loop ends after at most W iterations: each clears one of W bits and none is set inside". -/
def drain (c : Config) (s : State) : State := drainLoop c c.W s

/-- Marking and buffering an accepted frame (R161). -/
def bufferFrame (c : Config) (x : Nat) (p : Packet) (s : State) : State :=
  memWrite .inBuf (slot c x) p (setArrived (slot c x) true s)

/-- `DataArrive(f)`, part 2 (R161): in the window and not yet arrived. -/
def acceptFrame (c : Config) (x : Nat) (p : Packet) (s : State) : State :=
  if inWindow s.frameExpected x s.tooFar = true ∧ arrivedBit (slot c x) s = false then
    drain c (bufferFrame c x p s)
  else s

/-- `DataArrive(f)` (R163): part 1, then part 2 with its drain. -/
def dataArrive (c : Config) (x : Nat) (p : Packet) (s : State) : State :=
  acceptFrame c x p (nakOrDelay c x s)

/-- `DecodeErrorArrive()` (R164). -/
def decodeErrorArrive (c : Config) (s : State) : State :=
  if s.noNak then sendNak c s else s

end Sys2Proof.Machine
end

