-- ==== Sys2Proof/Machine/Sender.lean ====
section
/-! DEFINITION. The sender window (spec/43_sender_window.md R140 to R145). -/

namespace Sys2Proof.Machine

/-- The DATA frame that `SendData(s)` transmits: the slot's packet with the current ack value (R140, R144). -/
def dataFrameBytes (c : Config) (x : Nat) (s : State) : Bytes :=
  encodeFrame c (.data (ackValue c s) x (memRead .outBuf (slot c x) s))

/-- `SendData(s)` (R140): TX, START_TIMER, record, STOP_ACK_TIMER. -/
def sendData (c : Config) (x : Nat) (s : State) : State :=
  emit .stopAckTimer (record x (emit (.startTimer (slot c x)) (emit (.tx (dataFrameBytes c x s)) s)))

/-- The effects of `Admit(p)` behind its two checks (R141). -/
def admitEffects (c : Config) (p : Packet) (s : State) : State :=
  let s1 := sendData c s.nextFrameToSend (memWrite .outBuf (slot c s.nextFrameToSend) p s)
  let s2 := setNextFrameToSend (inc c s1.nextFrameToSend) s1
  setNbuffered (s2.nbuffered + 1) s2

/-- `Admit(p)` (R141): both checks precede every effect (R215), overrun before double entry (R219). -/
def admitPacket (c : Config) (p : Packet) (s : State) : State :=
  if s.nbuffered = c.W then raiseFault .admissionOverrun s
  else if s.nextFrameToSend ∈ s.ledger then raiseFault .ledgerDoubleEntry s
  else admitEffects c p s

/-- One round of the loop of `AckRelease` (R142). -/
def releaseOne (c : Config) (s : State) : State :=
  let s1 := setNbuffered (s.nbuffered - 1) s
  let s2 := emit (.stopTimer (slot c s1.ackExpected)) s1
  let s3 := forget s2.ackExpected s2
  setAckExpected (inc c s3.ackExpected) s3

/-- The loop of `AckRelease` (R142), with a bound on its rounds. -/
def ackReleaseLoop (c : Config) (a : Nat) : Nat → State → State
  | 0, s => s
  | k + 1, s =>
    if inWindow s.ackExpected a s.nextFrameToSend then ackReleaseLoop c a k (releaseOne c s) else s

/-- `AckRelease(a)` (R142). M rounds are enough for every value of the registers: after at most M of them the lower edge
has passed `a`, and the test fails (`ackRelease_done` in Laws/Loops.lean). -/
def ackRelease (c : Config) (a : Nat) (s : State) : State := ackReleaseLoop c a c.M s

/-- `Retransmit(s)` (R144): forget, STOP_TIMER, then `SendData`. -/
def retransmit (c : Config) (x : Nat) (s : State) : State :=
  sendData c x (emit (.stopTimer (slot c x)) (forget x s))

/-- `NakRetransmit(a)` (R143). -/
def nakRetransmit (c : Config) (a : Nat) (s : State) : State :=
  if inWindow s.ackExpected (nakTarget c a) s.nextFrameToSend then retransmit c (nakTarget c a) s else s

/-- `TimeoutRetransmit()` (R145): the head of the ledger, whatever slot the event names. -/
def timeoutRetransmit (c : Config) (s : State) : State :=
  match oldest s with
  | none => raiseFault .timeoutNoPending s
  | some x => retransmit c x s

end Sys2Proof.Machine
end

