-- ==== Sys2Proof/Machine/Events.lean ====
section
/-! DEFINITION. The event loop (spec/46_event_loop.md R190 to R197): what every event does around its handler, the handlers,
and one meaning per constructor of `Instr`. -/

namespace Sys2Proof.Machine

/-- A handler runs only while FAULT.halted = 0 (R190, R197). -/
def whenRunning (body : State → State) (s : State) : State :=
  if s.faultReg.halted then s else body s

/-- The core's part of `step(event, phl)` (R190): the handler if running, then the gate, always last. -/
def coreEvent (c : Config) (phl : Bool) (body : State → State) (s : State) : State :=
  gate c phl (whenRunning body (beginEvent s))

/-- One event (R190) with what its delivery (`deliver`, R221 to R224) and its commands do to the collaborators. -/
def runEvent (c : Config) (phl : Bool) (deliver : Env → Env) (body : State → State) (s : State) : State :=
  settle c phl (coreEvent c phl body { s with env := deliver s.env })

/-- `FrameReceived(b)` from a validated frame on (R193): the receiver part, the cumulative acknowledgement, the NAK
retransmission. -/
def frameArrive (c : Config) (f : Frame) (s : State) : State :=
  match f with
  | .data a x p => ackRelease c a (dataArrive c x p s)
  | .ack a => ackRelease c a s
  | .nak a => nakRetransmit c a (ackRelease c a s)

/-- `FrameReceived(b)` (R193). -/
def frameReceived (c : Config) (b : Bytes) (s : State) : State :=
  match decodeAndValidate c b with
  | .decodeError _ => decodeErrorArrive c s
  | .malformed _ => s
  | .ok f => frameArrive c f s

/-- NET_READY (R191). -/
def netReady (c : Config) (h : Header) (p : Packet) (s : State) : State :=
  runEvent c h.phl Env.packetTaken (admitPacket c p) s

/-- PHY_READY (R192): no handler action. -/
def phyReady (c : Config) (h : Header) (s : State) : State :=
  runEvent c h.phl Env.riseAnnounced id s

/-- FRAME_RX (R193) of any byte string. -/
def frameRx (c : Config) (h : Header) (b : Bytes) (s : State) : State :=
  runEvent c h.phl id (frameReceived c b) s

/-- FRAME_RX of a validated DATA frame (R83, R193). -/
def frameRxData (c : Config) (h : Header) (a x : Nat) (p : Packet) (s : State) : State :=
  runEvent c h.phl id (frameArrive c (.data a x p)) s

/-- FRAME_RX of a validated ACK frame (R83, R193). -/
def frameRxAck (c : Config) (h : Header) (a : Nat) (s : State) : State :=
  runEvent c h.phl id (frameArrive c (.ack a)) s

/-- FRAME_RX of a validated NAK frame (R83, R193). -/
def frameRxNak (c : Config) (h : Header) (a : Nat) (s : State) : State :=
  runEvent c h.phl id (frameArrive c (.nak a)) s

/-- DATA_TIMEOUT (R194); the slot the event names goes to the timer service only (R145, R221). -/
def dataTimeout (c : Config) (h : Header) (s : State) : State :=
  runEvent c h.phl (Env.dataTimerExpired h.slot) (timeoutRetransmit c) s

/-- ACK_TIMEOUT (R195). -/
def ackTimeout (c : Config) (h : Header) (s : State) : State :=
  runEvent c h.phl Env.ackTimerExpired (sendAck c) s

/-- The outcome of a step of this model. -/
abbrev Result := Host.Outcome State Fault Refusal

/-- NET_READY on this hardware. -/
def execNetReady (h : Header) (p : Packet) (s : State) : Result := .next (netReady Config.hw h p s)

/-- PHY_READY on this hardware. -/
def execPhyReady (h : Header) (s : State) : Result := .next (phyReady Config.hw h s)

/-- FRAME_RX on this hardware. -/
def execFrameRx (h : Header) (b : Bytes) (s : State) : Result := .next (frameRx Config.hw h b s)

/-- DATA_TIMEOUT on this hardware. -/
def execDataTimeout (h : Header) (s : State) : Result := .next (dataTimeout Config.hw h s)

/-- ACK_TIMEOUT on this hardware. -/
def execAckTimeout (h : Header) (s : State) : Result := .next (ackTimeout Config.hw h s)

/-- Reserved opcode 5: refused (R82). -/
def execReservedEvent5 (_h : Header) (_o : Option Bytes) (_s : State) : Result := .refused (.reservedEvent 5)

/-- Reserved opcode 6: refused (R82). -/
def execReservedEvent6 (_h : Header) (_o : Option Bytes) (_s : State) : Result := .refused (.reservedEvent 6)

/-- Reserved opcode 7: refused (R82). -/
def execReservedEvent7 (_h : Header) (_o : Option Bytes) (_s : State) : Result := .refused (.reservedEvent 7)

/-- FRAME_RX of a DATA frame on this hardware. -/
def execFrameRxData (h : Header) (a x : Nat) (p : Packet) (s : State) : Result :=
  .next (frameRxData Config.hw h a x p s)

/-- FRAME_RX of an ACK frame on this hardware. -/
def execFrameRxAck (h : Header) (a : Nat) (s : State) : Result := .next (frameRxAck Config.hw h a s)

/-- FRAME_RX of a NAK frame on this hardware. -/
def execFrameRxNak (h : Header) (a : Nat) (s : State) : Result := .next (frameRxNak Config.hw h a s)

end Sys2Proof.Machine
end

