-- ==== Sys2Proof/Machine/Dispatch.lean ====
section
/-! DEFINITION. One arm per constructor of Instr, each one direct call of its meaning. -/

namespace Sys2Proof.Machine

def exec (i : Instr) (s : State) : Host.Outcome State Fault Refusal :=
  match i with
  | .netReady h p => Sys2Proof.Machine.execNetReady h p s
  | .phyReady h => Sys2Proof.Machine.execPhyReady h s
  | .frameRx h b => Sys2Proof.Machine.execFrameRx h b s
  | .dataTimeout h => Sys2Proof.Machine.execDataTimeout h s
  | .ackTimeout h => Sys2Proof.Machine.execAckTimeout h s
  | .reservedEvent5 h o => Sys2Proof.Machine.execReservedEvent5 h o s
  | .reservedEvent6 h o => Sys2Proof.Machine.execReservedEvent6 h o s
  | .reservedEvent7 h o => Sys2Proof.Machine.execReservedEvent7 h o s
  | .frameRxData h a x p => Sys2Proof.Machine.execFrameRxData h a x p s
  | .frameRxAck h a => Sys2Proof.Machine.execFrameRxAck h a s
  | .frameRxNak h a => Sys2Proof.Machine.execFrameRxNak h a s

end Sys2Proof.Machine
end

