-- ==== Sys2Proof/WellFormed.lean ====
section
/-! DEFINITION. Which terms of `Instr` are events of a build (spec/00_scope.md R13, spec/30_encoding.md R78, R80, R83):
header fields in their widths, a packet of PKT_LEN bytes, frame fields in range, and a `frameRx` operand that is no
frame (one that is a frame is written as that frame's own form). -/

namespace Sys2Proof

/-- The header's fields fit their widths: slot n − 1 bits, the reserved field what is left of the header (R80). -/
def Header.wf (c : Config) (h : Header) : Bool :=
  decide (h.slot < c.W) && decide (h.reserved < 2 ^ (c.hdrBits - (c.n + 3)))

/-- `decodeAndValidate` finds a frame in the byte string (R123, R129). -/
def isFrame (c : Config) (b : Bytes) : Bool :=
  match Machine.decodeAndValidate c b with
  | .ok _ => true
  | .decodeError _ => false
  | .malformed _ => false

/-- Well-formed events of the build `c`. -/
def Instr.wf (c : Config) : Instr → Bool
  | .netReady h p => h.wf c && decide (p.length = c.pktLen)
  | .phyReady h => h.wf c
  | .frameRx h b => h.wf c && !isFrame c b
  | .dataTimeout h => h.wf c
  | .ackTimeout h => h.wf c
  | .reservedEvent5 h _ => h.wf c
  | .reservedEvent6 h _ => h.wf c
  | .reservedEvent7 h _ => h.wf c
  | .frameRxData h a s p => h.wf c && (Machine.Frame.data a s p).wf c
  | .frameRxAck h a => h.wf c && (Machine.Frame.ack a).wf c
  | .frameRxNak h a => h.wf c && (Machine.Frame.nak a).wf c

end Sys2Proof
end

