-- ==== Sys2Proof/Decode.lean ====
section
/-! DEFINITION. The event decoder (spec/30_encoding.md R80 to R83), total on every header word and operand and rejecting
by name, and the encoder written from the same layout. -/

namespace Sys2Proof

/-- Why an event word is no event (R80). -/
inductive DecodeReject where
  /-- The header has a bit set above its width. -/
  | headerTooWide
  /-- NET_READY or FRAME_RX came without its data operand. -/
  | missingOperand
  /-- PHY_READY, DATA_TIMEOUT or ACK_TIMEOUT came with a data operand. -/
  | unexpectedOperand
  deriving DecidableEq, Repr

/-- Header bits 2:0 (R80). -/
def headerOp (h : Nat) : Nat := h % 8

/-- Header bit 3 (R80). -/
def headerPhl (h : Nat) : Bool := decide (h / 8 % 2 = 1)

/-- The slot field: n − 1 bits from bit 4 (bits 6:4 for n = 4; R80). -/
def headerSlot (c : Config) (h : Nat) : Nat := h / 16 % c.W

/-- The bits above the slot field (bit 7 for n = 4; R80). -/
def headerReserved (c : Config) (h : Nat) : Nat := h / (16 * c.W)

/-- The fields of a header word. -/
def decodeHeader (c : Config) (h : Nat) : Header :=
  { phl := headerPhl h, slot := headerSlot c h, reserved := headerReserved c h }

/-- The sub-forms of FRAME_RX (R83): a byte string that is a frame becomes that frame's form. -/
def decodeFrameRx (c : Config) (h : Header) (b : Bytes) : Instr :=
  match Machine.decodeAndValidate c b with
  | .ok (.data a s p) => .frameRxData h a s p
  | .ok (.ack a) => .frameRxAck h a
  | .ok (.nak a) => .frameRxNak h a
  | .decodeError _ => .frameRx h b
  | .malformed _ => .frameRx h b

/-- The events that carry a data operand (R80, R81). -/
def withOperand (o : Option Bytes) (k : Bytes → Instr) : Except DecodeReject Instr :=
  match o with
  | some b => .ok (k b)
  | none => .error .missingOperand

/-- The events that carry none (R80, R81). -/
def withoutOperand (o : Option Bytes) (i : Instr) : Except DecodeReject Instr :=
  match o with
  | some _ => .error .unexpectedOperand
  | none => .ok i

/-- Dispatch on the opcode alone (R81, R190). -/
def decodeOp (c : Config) (op : Nat) (h : Header) (o : Option Bytes) : Except DecodeReject Instr :=
  match op with
  | 0 => withOperand o (fun p => .netReady h p)
  | 1 => withoutOperand o (.phyReady h)
  | 2 => withOperand o (fun b => decodeFrameRx c h b)
  | 3 => withoutOperand o (.dataTimeout h)
  | 4 => withoutOperand o (.ackTimeout h)
  | 5 => .ok (.reservedEvent5 h o)
  | 6 => .ok (.reservedEvent6 h o)
  | _ => .ok (.reservedEvent7 h o)

/-- The decoder. -/
def decode (c : Config) (ev : EventWord) : Except DecodeReject Instr :=
  if 2 ^ c.hdrBits ≤ ev.header then .error .headerTooWide
  else decodeOp c (headerOp ev.header) (decodeHeader c ev.header) ev.operand

/-- A header word from its fields (R80). -/
def encodeHeader (c : Config) (op : Nat) (h : Header) : Nat :=
  op + 8 * h.phl.toNat + 16 * h.slot + 16 * c.W * h.reserved

/-- The data operand of an event; a frame's form carries its wire bytes (R71 to R73, R80). -/
def encodeOperand (c : Config) : Instr → Option Bytes
  | .netReady _ p => some p
  | .phyReady _ => none
  | .frameRx _ b => some b
  | .dataTimeout _ => none
  | .ackTimeout _ => none
  | .reservedEvent5 _ o => o
  | .reservedEvent6 _ o => o
  | .reservedEvent7 _ o => o
  | .frameRxData _ a s p => some (Machine.encodeFrame c (.data a s p))
  | .frameRxAck _ a => some (Machine.encodeFrame c (.ack a))
  | .frameRxNak _ a => some (Machine.encodeFrame c (.nak a))

/-- The encoder: the event word of a well-formed event. -/
def encode (c : Config) (i : Instr) : EventWord :=
  { header := encodeHeader c i.op i.header, operand := encodeOperand c i }

/-- `k` bytes of a number, least significant first. -/
def leBytes : Nat → Nat → Bytes
  | 0, _ => []
  | k + 1, w => BitVec.ofNat 8 w :: leBytes k (w / 256)

/-- The event word of an opcode-table word: its first byte is the header; the bytes that follow it are the operand's.
A NET_READY operand is filled up with zero bytes to PKT_LEN; a FRAME_RX operand has just the bytes given; the other
events have none (log entry 5). -/
def tableEvent (c : Config) (nbits w : Nat) : EventWord :=
  let given := leBytes (nbits / 8 - 1) (w / 256)
  { header := w % 256,
    operand :=
      match w % 8 with
      | 0 => some (given ++ List.replicate (c.pktLen - given.length) 0)
      | 2 => some given
      | _ => none }

/-- The instruction the decoder reads from a word of spec/opcode_table.json, on this hardware. -/
def decodeTableWord (nbits w : Nat) : Option Instr :=
  match decode Config.hw (tableEvent Config.hw nbits w) with
  | .ok i => some i
  | .error _ => none

end Sys2Proof
end

