-- ==== Sys2Proof/Machine/Fetch.lean ====
section
/-! DEFINITION. Taking the next presented event (spec/20_memory.md R60; the core itself fetches nothing, spec/10_state.md
R33), and placing one, for `step` and `withFetchWord` to call. -/

namespace Sys2Proof.Machine

/-- The event at the head of the queue has been taken by the core (R60: none reordered, dropped or merged). -/
def takeEvent (s : State) : State := { s with inbox := s.inbox.tail }

/-- The event that an opcode-table word stands for, presented ahead of every other, and the timer service not stuck: all
that `step` needs to run it next. -/
def presentTableEvent (s : State) (nbits w : Nat) : State :=
  { s with inbox := tableEvent Config.hw nbits w :: s.inbox, env := { s.env with doubleStart := false } }

end Sys2Proof.Machine
end

