-- ==== Sys2Proof/Machine/Step.lean ====
section
/-! DEFINITION. One step of the station: the next presented event is decoded and handled to completion (spec/00_scope.md
R12, spec/20_memory.md R59, R60); with none presented the core waits (spec/10_state.md R33) and only its collaborators act. -/

namespace Sys2Proof.Machine

/-- The step. An event word that is no event is refused by name; a stuck timer service has no next state (U20). -/
def step (s : State) : Host.Outcome State Fault Refusal :=
  if s.env.doubleStart then .fault .timerServiceStuck
  else
    match s.inbox with
    | [] => .next (idle Config.hw s)
    | ev :: _ =>
      match decode Config.hw ev with
      | .error _ => .refused .undecodable
      | .ok i => if i.wf Config.hw then exec i (takeEvent s) else .refused .illFormed

/-- `s` with an opcode-table word presented as the very next event (log entry 5). -/
def State.withFetchWord (s : State) (nbits w : Nat) : State := presentTableEvent s nbits w

end Sys2Proof.Machine
end

