-- ==== Sys2Proof/Safety.lean ====
section
/-! DEFINITION. The terms in which claims are made: what a running station is (spec/60_exceptions.md R216), the shape and the
invariants of its state (spec/10_state.md R36 to R39, spec/60_exceptions.md R221, R224), which events the collaborators'
contracts allow (R221 to R224), and when two states agree on the core's registers. -/

namespace Sys2Proof.Machine

/-- FAULT.halted = 0 (R31). "A model should treat a state with `FAULT.halted = 1` as a fault outcome that is never final, so
that every claim carries 'no fault recorded' as a premise" (R216). -/
def State.running (s : State) : Prop := s.faultReg.halted = false

/-- Every register in its range and every array of its length (R13, R20, R31, R50). -/
structure State.Wf (c : Config) (s : State) : Prop where
  ackExpected_lt : s.ackExpected < c.M
  nextFrameToSend_lt : s.nextFrameToSend < c.M
  nbuffered_le : s.nbuffered ≤ c.W
  frameExpected_lt : s.frameExpected < c.M
  tooFar_lt : s.tooFar < c.M
  outBuf_length : s.outBuf.length = c.W
  outBuf_packets : ∀ p ∈ s.outBuf, p.length = c.pktLen
  inBuf_length : s.inBuf.length = c.W
  inBuf_packets : ∀ p ∈ s.inBuf, p.length = c.pktLen
  arrived_length : s.arrived.length = c.W
  ledger_lt : ∀ x ∈ s.ledger, x < c.M
  ledger_nodup : s.ledger.Nodup
  ledger_length_le : s.ledger.length ≤ c.W
  halted_iff : s.faultReg.halted = true ↔ s.faultReg.cause ≠ .none
  timers_length : s.env.timers.length = c.W

/-- The invariants of a station. They hold in every reachable state, halted or not, since a fault changes FAULT alone. -/
structure State.Inv (c : Config) (s : State) : Prop extends State.Wf c s where
  /-- R36: `nbuffered = (next_frame_to_send − ack_expected) mod M`. -/
  sender : s.nbuffered = dist c s.ackExpected s.nextFrameToSend
  /-- R37: `too_far = (frame_expected + W) mod M`. -/
  receiver : s.tooFar = (s.frameExpected + c.W) % c.M
  /-- R38: the ledger holds the sequence numbers in flight and nothing else. -/
  ledger_mem : ∀ x, x ∈ s.ledger ↔ x < c.M ∧ inWindow s.ackExpected x s.nextFrameToSend = true
  /-- R38: "its length equals `nbuffered`". -/
  ledger_length : s.ledger.length = s.nbuffered
  /-- R39: "`arrived[frame_expected mod W]` is false between events". -/
  expected_not_arrived : arrivedBit (slot c s.frameExpected) s = false
  /-- R221: "an armed timer implies an in-flight frame". -/
  armed_inflight : ∀ i, s.env.armed i = true → ∃ x ∈ s.ledger, slot c x = i
  /-- R224: admission is resumed only while a NET_READY would find room. -/
  resumed_room : s.env.netResumed = true → s.running ∧ s.nbuffered < c.W
  /-- R221: no timer has been started twice. -/
  not_stuck : s.env.doubleStart = false

/-- The events the collaborators may deliver under their contracts: a DATA_TIMEOUT for an armed timer (R221), an
ACK_TIMEOUT while the ack-delay timer is armed (R222), a NET_READY while admission is resumed (R224; that a packet was
waiting is not asked, since it may have come just before), a PHY_READY for a rise of the readiness level that is due, or, the
level being low, for one just now (R223); FRAME_RX at any time (R223). The reserved opcodes are never presented (R82). -/
def Env.allows (e : Env) : Instr → Bool
  | .netReady _ _ => e.netResumed
  | .phyReady _ => decide (0 < e.phyDue) || !e.phlReady
  | .frameRx _ _ => true
  | .dataTimeout h => e.armed h.slot
  | .ackTimeout _ => e.ackTimer
  | .reservedEvent5 _ _ => false
  | .reservedEvent6 _ _ => false
  | .reservedEvent7 _ _ => false
  | .frameRxData _ _ _ _ => true
  | .frameRxAck _ _ => true
  | .frameRxNak _ _ => true

/-- One of the five events of R4, FRAME_RX in any of its forms. -/
def isEvent : Instr → Bool
  | .netReady _ _ => true
  | .phyReady _ => true
  | .frameRx _ _ => true
  | .dataTimeout _ => true
  | .ackTimeout _ => true
  | .reservedEvent5 _ _ => false
  | .reservedEvent6 _ _ => false
  | .reservedEvent7 _ _ => false
  | .frameRxData _ _ _ _ => true
  | .frameRxAck _ _ => true
  | .frameRxNak _ _ => true

/-- The five sender registers (R20) and the ledger agree. -/
structure SameSender (s t : State) : Prop where
  ackExpected : t.ackExpected = s.ackExpected
  nextFrameToSend : t.nextFrameToSend = s.nextFrameToSend
  nbuffered : t.nbuffered = s.nbuffered
  outBuf : t.outBuf = s.outBuf
  ledger : t.ledger = s.ledger

/-- The receiver registers (R20) agree. -/
structure SameReceiver (s t : State) : Prop where
  frameExpected : t.frameExpected = s.frameExpected
  tooFar : t.tooFar = s.tooFar
  arrived : t.arrived = s.arrived
  inBuf : t.inBuf = s.inBuf
  noNak : t.noNak = s.noNak

/-- The whole state of the core (R20) agrees. -/
structure SameCore (s t : State) : Prop where
  sender : SameSender s t
  receiver : SameReceiver s t
  faultReg : t.faultReg = s.faultReg

/-- One if the readiness level "becomes true" from one sight of it to the next, none otherwise (R223). -/
def rise (before now : Bool) : Nat := if before = false ∧ now = true then 1 else 0

/-- What the delivery of an event does to the collaborator it comes from, before its handler runs (R221 to R224). -/
def eventDelivery : Instr → Env → Env
  | .netReady _ _, e => e.packetTaken
  | .phyReady _, e => e.riseAnnounced
  | .frameRx _ _, e => e
  | .dataTimeout h, e => e.dataTimerExpired h.slot
  | .ackTimeout _, e => e.ackTimerExpired
  | .reservedEvent5 _ _, e => e
  | .reservedEvent6 _ _, e => e
  | .reservedEvent7 _ _, e => e
  | .frameRxData _ _ _ _, e => e
  | .frameRxAck _ _, e => e
  | .frameRxNak _ _, e => e

/-- This hardware's collaborators after the event `i` whose commands are `ks` (R61, R221 to R224; log entries 9 and 16). -/
def envAfter (i : Instr) (ks : List Command) (e : Env) : Env :=
  (((eventDelivery i e).sampled i.header.phl).perform ks).elapse Config.hw

/-- The gate command that an event ends with (R196), from the readiness level and what the handler left in FAULT.halted and
`nbuffered`. -/
def gateCommand (c : Config) (phl halted : Bool) (nbuffered : Nat) : Command :=
  if halted = false ∧ nbuffered < c.W ∧ phl = true then .resumeAdmission else .suspendAdmission

/-- How many sequence numbers an ack value releases: `ack_expected` "up to and including the acked value" if it lies in the
sender's window, none otherwise (R142). -/
def releaseCount (c : Config) (a : Nat) (s : State) : Nat :=
  if inWindow s.ackExpected a s.nextFrameToSend then dist c s.ackExpected a + 1 else 0

/-- The `i`-th sequence number from `x` on. -/
def seqPlus (c : Config) (x i : Nat) : Nat := (x + i) % c.M

/-- The STOP_TIMER commands of a release, "lowest sequence number first" (R142). -/
def releaseStops (c : Config) (a : Nat) (s : State) : List Command :=
  (List.range (releaseCount c a s)).map fun i => .stopTimer (slot c (seqPlus c s.ackExpected i))

/-- The ledger after a release: the released numbers are out, the order of the others is kept (R112, R142). -/
def releaseLedger (c : Config) (a : Nat) (s : State) : List Nat :=
  s.ledger.filter fun x => !decide (dist c s.ackExpected x < releaseCount c a s)

/-- `k` is how many rounds a drain makes: the flags from `frame_expected` on are set `k` times and then not, or `k` is the
bound (R162). -/
def DrainRounds (c : Config) (fuel k : Nat) (s : State) : Prop :=
  k ≤ fuel ∧ (∀ j, j < k → arrivedBit (slot c (seqPlus c s.frameExpected j)) s = true) ∧
    (k < fuel → arrivedBit (slot c (seqPlus c s.frameExpected k)) s = false)

/-- The packets a drain of `k` rounds delivers when the frame `frame_expected` has just come with payload `p`: `p`, then the
buffered ones (R162). -/
def drainPackets (c : Config) (k : Nat) (p : Packet) (s : State) : List Packet :=
  p :: (List.range (k - 1)).map fun j => memRead .inBuf (slot c (seqPlus c s.frameExpected (j + 1))) s

/-- The receiver's history: of the packets `P 0, P 1, …` the peer was given, exactly the first `N` have been delivered, in
order and once each; every buffered packet is the one of its number (R39, R162). -/
structure DeliveredPrefix (c : Config) (P : Nat → Packet) (N : Nat) (s : State) : Prop where
  expected : s.frameExpected = N % c.M
  delivered : s.env.delivered = (List.range N).map P
  buffered : ∀ j, 0 < j → j < c.W → arrivedBit (slot c (N + j)) s = true → memRead .inBuf (slot c (N + j)) s = P (N + j)

/-- The sender's history: `N` packets `Q 0, Q 1, …` have been admitted, and the slot of every one that is still in flight holds
it (R39). -/
structure AdmittedHeld (c : Config) (Q : Nat → Packet) (N : Nat) (s : State) : Prop where
  next : s.nextFrameToSend = N % c.M
  count : s.nbuffered ≤ N
  held : ∀ k, N - s.nbuffered ≤ k → k < N → memRead .outBuf (slot c k) s = Q k

/-- The DATA frame of sequence number `x` with the current ack value (R140, R175). -/
def currentDataFrame (c : Config) (x : Nat) (p : Packet) (s : State) : Bytes :=
  encodeFrame c (.data (prev c s.frameExpected) x p)

/-- Is the command a TX? -/
def Command.isTx : Command → Bool
  | .tx _ => true
  | _ => false

/-- Is the command a DELIVER? -/
def Command.isDeliver : Command → Bool
  | .deliver _ => true
  | _ => false

/-- Is the command a START_TIMER? -/
def Command.isStartTimer : Command → Bool
  | .startTimer _ => true
  | _ => false

/-- Is the command a STOP_TIMER? -/
def Command.isStopTimer : Command → Bool
  | .stopTimer _ => true
  | _ => false

/-- Is the command one of the two gate commands? -/
def Command.isGate : Command → Bool
  | .resumeAdmission => true
  | .suspendAdmission => true
  | _ => false

end Sys2Proof.Machine
end

