-- ==== Sys2Proof/Certificates/Slice0/Obligations.lean ====
section
/-! DEFINITION. The statements about this hardware that the provers settle. `hw` is the configuration of this hardware, whose
open parameters are opaque: a statement about it holds whatever they are. Where a statement gives the field `env`, it says
that the collaborators did with the event and its commands what R61 and R221 to R224 assume of them (the spec's decision D27;
how the model keeps their state, and what they do on their own, is log entries 9 and 16: the model's choice). The events come
in through `inbox` (log entry 5). -/

open Sys2Proof Sys2Proof.Machine
open Sys2Proof.Config (hw)

/-! ### Encoding -/

/-- R80, R81: header words written out bit by bit (op 2:0, phl 3, slot 6:4, reserved 7) decode to the events they stand
for. -/
def Obligations.HeaderWordsDecodeToTheirEvents : Prop :=
  ∀ (p : Bytes) (o : Option Bytes),
    decode hw ⟨0x08, some p⟩ = .ok (.netReady ⟨true, 0, 0⟩ p) ∧
    decode hw ⟨0x00, some p⟩ = .ok (.netReady ⟨false, 0, 0⟩ p) ∧
    decode hw ⟨0x09, none⟩ = .ok (.phyReady ⟨true, 0, 0⟩) ∧
    decode hw ⟨0x01, none⟩ = .ok (.phyReady ⟨false, 0, 0⟩) ∧
    decode hw ⟨0x0A, some [0x02, 0x03, 0x00, 0x00, 0x00]⟩ =
      .ok (.frameRx ⟨true, 0, 0⟩ [0x02, 0x03, 0x00, 0x00, 0x00]) ∧
    decode hw ⟨0x0B, none⟩ = .ok (.dataTimeout ⟨true, 0, 0⟩) ∧
    decode hw ⟨0x2B, none⟩ = .ok (.dataTimeout ⟨true, 2, 0⟩) ∧
    decode hw ⟨0xF3, none⟩ = .ok (.dataTimeout ⟨false, 7, 1⟩) ∧
    decode hw ⟨0x0C, none⟩ = .ok (.ackTimeout ⟨true, 0, 0⟩) ∧
    decode hw ⟨0x05, o⟩ = .ok (.reservedEvent5 ⟨false, 0, 0⟩ o) ∧
    decode hw ⟨0x06, o⟩ = .ok (.reservedEvent6 ⟨false, 0, 0⟩ o) ∧
    decode hw ⟨0x0F, o⟩ = .ok (.reservedEvent7 ⟨true, 0, 0⟩ o)

/-- Every well-formed event is what its encoding decodes to: no bit of a header, no byte of a packet, of a received byte
string or of a frame is dropped (R80, R81, R83, R120, R123). -/
def Obligations.DecodeOfEncodeIsTheEvent : Prop :=
  ∀ i : Instr, i.wf hw = true → decode hw (encode hw i) = .ok i

/-- Every event word that decodes is the encoding of what it decodes to: no two words mean one event. -/
def Obligations.EncodeOfDecodeIsTheWord : Prop :=
  ∀ (ev : EventWord) (i : Instr), decode hw ev = .ok i → encode hw i = ev

/-- What the decoder gives is well-formed, but for the length of a NET_READY packet, which `step` checks (R13, R80). -/
def Obligations.DecodedEventsAreWellFormed : Prop :=
  ∀ (ev : EventWord) (i : Instr), decode hw ev = .ok i →
    (∀ h p, i = .netReady h p → p.length = hw.pktLen) → i.wf hw = true

/-- R131 (the spec's own inference "from rule R120 and rule R123"): the codec is a bijection between frames and the byte
strings that decode to `Ok`, for every build. That n is at most 8 is log entry 3. -/
def Obligations.FrameCodecRoundTrip : Prop :=
  ∀ c : Config, c.Legal →
    (∀ f : Frame, f.wf c = true → decodeAndValidate c (encodeFrame c f) = .ok f) ∧
    (∀ (b : Bytes) (f : Frame), decodeAndValidate c b = .ok f → f.wf c = true ∧ encodeFrame c f = b)

/-- R120: the bytes of an encoded frame of each kind, and their number; R121 (with R55): the four checksum bytes in wire order
for either byte order, and `CkValue` as their inverse. -/
def Obligations.EncodedFrameBytes : Prop :=
  (∀ v : Word32,
    ckBytes .le v = [v.extractLsb' 0 8, v.extractLsb' 8 8, v.extractLsb' 16 8, v.extractLsb' 24 8] ∧
    ckBytes .be v = [v.extractLsb' 24 8, v.extractLsb' 16 8, v.extractLsb' 8 8, v.extractLsb' 0 8]) ∧
  (∀ (o : ByteOrder) (v : Word32), ckValue o (ckBytes o v) = v) ∧
  (∀ (o : ByteOrder) (b : Bytes), b.length = 4 → ckBytes o (ckValue o b) = b) ∧
  ∀ (a x : Nat) (p : Packet), p.length = hw.pktLen →
    encodeFrame hw (.data a x p) =
      ([hw.kindData, BitVec.ofNat 8 a, BitVec.ofNat 8 x] ++ p) ++
        ckBytes hw.cksumOrder (hw.cksum ([hw.kindData, BitVec.ofNat 8 a, BitVec.ofNat 8 x] ++ p)) ∧
    (encodeFrame hw (.data a x p)).length = 3 + hw.pktLen + 4 ∧
    encodeFrame hw (.ack a) =
      [hw.kindAck, BitVec.ofNat 8 a] ++ ckBytes hw.cksumOrder (hw.cksum [hw.kindAck, BitVec.ofNat 8 a]) ∧
    (encodeFrame hw (.ack a)).length = 6 ∧
    encodeFrame hw (.nak a) =
      [hw.kindNak, BitVec.ofNat 8 a] ++ ckBytes hw.cksumOrder (hw.cksum [hw.kindNak, BitVec.ofNat 8 a]) ∧
    (encodeFrame hw (.nak a)).length = 6

/-- R123: the checks of the decoder in their order, "the first that fails decides the result"; a byte string that passes all
of them is parsed from its fixed offsets. -/
def Obligations.FirstFailingCheckDecides : Prop :=
  ∀ b : Bytes,
    let L := b.length
    let valid := hw.cksum (b.take (L - 4)) = ckValue hw.cksumOrder (b.drop (L - 4))
    let k := byteAt b 0
    let known := k = hw.kindData ∨ k = hw.kindAck ∨ k = hw.kindNak
    let fits := (k = hw.kindData → L = 3 + hw.pktLen + 4) ∧ (k ≠ hw.kindData → L = 6)
    let inRange := (byteAt b 1).toNat ≤ 15 ∧ (k = hw.kindData → (byteAt b 2).toNat ≤ 15)
    (L < 6 → decodeAndValidate hw b = .decodeError .short) ∧
    (6 ≤ L → ¬valid → decodeAndValidate hw b = .decodeError .cksum) ∧
    (6 ≤ L → valid → ¬known → decodeAndValidate hw b = .malformed .kind) ∧
    (6 ≤ L → valid → known → ¬fits → decodeAndValidate hw b = .malformed .length) ∧
    (6 ≤ L → valid → known → fits → ¬inRange → decodeAndValidate hw b = .malformed .field) ∧
    (6 ≤ L → valid → fits → inRange →
      (k = hw.kindData → decodeAndValidate hw b =
        .ok (.data (byteAt b 1).toNat (byteAt b 2).toNat ((b.drop 3).take hw.pktLen))) ∧
      (k = hw.kindAck → decodeAndValidate hw b = .ok (.ack (byteAt b 1).toNat)) ∧
      (k = hw.kindNak → decodeAndValidate hw b = .ok (.nak (byteAt b 1).toNat)))

/-- R82: the reserved opcodes have no next state, neither as instructions nor as presented words. -/
def Obligations.ReservedOpcodesAreRefused : Prop :=
  (∀ (h : Header) (o : Option Bytes) (s : State),
    exec (.reservedEvent5 h o) s = .refused (.reservedEvent 5) ∧
    exec (.reservedEvent6 h o) s = .refused (.reservedEvent 6) ∧
    exec (.reservedEvent7 h o) s = .refused (.reservedEvent 7)) ∧
  (∀ (ev : EventWord) (rest : List EventWord) (s : State), s.env.doubleStart = false → s.inbox = ev :: rest →
    ev.header < 256 → 5 ≤ ev.header % 8 → step s = .refused (.reservedEvent (ev.header % 8)))

/-! ### The step -/

/-- A step takes the next presented word and runs the event it decodes to, on the state without that word (R12, R59, R60). -/
def Obligations.StepRunsTheDecodedEvent : Prop :=
  ∀ (s : State) (ev : EventWord) (rest : List EventWord) (i : Instr),
    s.env.doubleStart = false → s.inbox = ev :: rest → decode hw ev = .ok i → i.wf hw = true →
    step s = exec i { s with inbox := rest }

/-- With nothing presented the core waits and only its collaborators act on their own; a word that is no event is refused by
name; a stuck timer service stops the station (R33, R60, R80, R221). What `step` does on these is the model's own: log entries
5, 6, 10 and 16. -/
def Obligations.StepWithoutAnEvent : Prop :=
  (∀ s : State, s.env.doubleStart = false → s.inbox = [] → step s = .next { s with env := s.env.elapse hw }) ∧
  (∀ (s : State) (ev : EventWord) (rest : List EventWord) (e : DecodeReject),
    s.env.doubleStart = false → s.inbox = ev :: rest → decode hw ev = .error e → step s = .refused .undecodable) ∧
  (∀ (s : State) (ev : EventWord) (rest : List EventWord) (i : Instr),
    s.env.doubleStart = false → s.inbox = ev :: rest → decode hw ev = .ok i → i.wf hw = false →
    step s = .refused .illFormed) ∧
  (∀ s : State, s.env.doubleStart = true → step s = .fault .timerServiceStuck)

/-! ### Sequence arithmetic -/

/-- R102 (the spec's own inference from R101): the three cases of `in_window` are one comparison of circular distances, and the
window has as many members as its edges are apart; for every build. -/
def Obligations.InWindowIsModularDistance : Prop :=
  ∀ c : Config, c.Legal → ∀ low high : Nat, low < c.M → high < c.M →
    (∀ x, x < c.M → inWindow low x high = decide ((x + c.M - low) % c.M < (high + c.M - low) % c.M)) ∧
    (List.range c.M).countP (fun x => inWindow low x high) = (high + c.M - low) % c.M

/-- R104: two sequence numbers share a slot exactly when they are half the sequence space apart; for every build. -/
def Obligations.SlotsCollideHalfASpaceApart : Prop :=
  ∀ c : Config, c.Legal → ∀ s t : Nat, s < c.M → t < c.M →
    slot c s = s % c.W ∧ slot c s < c.W ∧ (s ≠ t → (slot c s = slot c t ↔ t = (s + c.W) % c.M))

/-- R100, R103: `prev` is the inverse of `inc` on both sides (the spec's own inference); both wrap at the ends of the sequence
space; for every build. -/
def Obligations.IncAndPrevAreInverse : Prop :=
  ∀ c : Config, c.Legal → inc c c.maxSeq = 0 ∧ prev c 0 = c.maxSeq ∧
    ∀ s : Nat, s < c.M →
      prev c s = (s + c.maxSeq) % c.M ∧ inc c (prev c s) = s ∧ prev c (inc c s) = s

/-! ### Timer ledger -/

/-- R112: `forget` removes the one entry equal to its operand, keeps the order of the others, changes nothing where there is
none, and is idempotent. -/
def Obligations.ForgetRemovesTheOneEntry : Prop :=
  ∀ (x : Nat) (s : State), s.ledger.Nodup →
    forget x s = { s with ledger := s.ledger.filter (fun y => y != x) } ∧
    x ∉ (forget x s).ledger ∧
    (x ∉ s.ledger → forget x s = s) ∧
    forget x (forget x s) = forget x s

/-! ### Reset -/

/-- R41: the values the spec gives for reset; of the packet buffers, whose contents are unspecified, only the shape. -/
def Obligations.ResetValues : Prop :=
  State.reset.ackExpected = 0 ∧ State.reset.nextFrameToSend = 0 ∧ State.reset.nbuffered = 0 ∧
  State.reset.frameExpected = 0 ∧ State.reset.tooFar = 8 ∧
  State.reset.arrived = [false, false, false, false, false, false, false, false] ∧ State.reset.noNak = true ∧
  State.reset.ledger = [] ∧ State.reset.faultReg.halted = false ∧ State.reset.faultReg.cause = .none ∧
  State.reset.outBuf.length = 8 ∧ (∀ p ∈ State.reset.outBuf, p.length = hw.pktLen) ∧
  State.reset.inBuf.length = 8 ∧ (∀ p ∈ State.reset.inBuf, p.length = hw.pktLen)

/-- R251, R252: reset emits no command, admission is suspended and every timer is idle (that the model keeps this state of the
collaborators is log entry 9). -/
def Obligations.ResetEmitsNothing : Prop :=
  State.reset.out = [] ∧ State.reset.env.netResumed = false ∧ State.reset.env.ackTimer = false ∧
  ∀ i, State.reset.env.armed i = false

/-- The state after reset meets the invariants (R36 to R39, R221, R224, R41). -/
def Obligations.ResetMeetsTheInvariants : Prop := State.reset.Inv hw

/-- R31: the layout and the codes of FAULT. -/
def Obligations.FaultRegisterLayout : Prop :=
  ∀ f : FaultReg,
    f.bits.getLsbD 2 = f.halted ∧
    f.bits.extractLsb' 0 2 =
      (match f.cause with
        | .none => 0#2
        | .admissionOverrun => 1#2
        | .ledgerDoubleEntry => 2#2
        | .timeoutNoPending => 3#2)

/-! ### The events of a running station -/

/-- R141: NET_READY admits its packet, or raises one of its two faults before any effect (R215); its gate command is R196. That
`env` is `envAfter` is the model's choice, log entries 9 and 16. -/
def Obligations.NetReadyEvent : Prop :=
  ∀ (h : Header) (p : Packet) (s : State), s.running → s.outBuf.length = hw.W →
    (s.nbuffered = hw.W →
      exec (.netReady h p) s = .next { s with
        faultReg := ⟨true, .admissionOverrun⟩
        out := [.suspendAdmission]
        env := envAfter (.netReady h p) [.suspendAdmission] s.env }) ∧
    (s.nbuffered ≠ hw.W → s.nextFrameToSend ∈ s.ledger →
      exec (.netReady h p) s = .next { s with
        faultReg := ⟨true, .ledgerDoubleEntry⟩
        out := [.suspendAdmission]
        env := envAfter (.netReady h p) [.suspendAdmission] s.env }) ∧
    (s.nbuffered ≠ hw.W → s.nextFrameToSend ∉ s.ledger →
      let ks : List Command :=
        [.tx (encodeFrame hw (.data (prev hw s.frameExpected) s.nextFrameToSend p)),
          .startTimer (slot hw s.nextFrameToSend), .stopAckTimer, gateCommand hw h.phl false (s.nbuffered + 1)]
      exec (.netReady h p) s = .next { s with
        outBuf := s.outBuf.set (slot hw s.nextFrameToSend) p
        ledger := s.ledger ++ [s.nextFrameToSend]
        nextFrameToSend := inc hw s.nextFrameToSend
        nbuffered := s.nbuffered + 1
        out := ks
        env := envAfter (.netReady h p) ks s.env })

/-- R192: PHY_READY has no handler action; its only output is the gate command (R196, R197). That `env` is `envAfter` is the
model's choice, log entries 9 and 16. -/
def Obligations.PhyReadyEvent : Prop :=
  ∀ (h : Header) (s : State),
    let ks := [gateCommand hw h.phl s.faultReg.halted s.nbuffered]
    exec (.phyReady h) s = .next { s with out := ks, env := envAfter (.phyReady h) ks s.env }

/-- R178, R195: ACK_TIMEOUT sends one standalone ACK with the current ack value and changes no register. That `env` is
`envAfter` (the expired ack-delay timer idle, the frame accepted) is the model's choice, log entries 9 and 16. -/
def Obligations.AckTimeoutEvent : Prop :=
  ∀ (h : Header) (s : State), s.running →
    let ks : List Command :=
      [.tx (encodeFrame hw (.ack (prev hw s.frameExpected))), gateCommand hw h.phl false s.nbuffered]
    exec (.ackTimeout h) s = .next { s with out := ks, env := envAfter (.ackTimeout h) ks s.env }

/-- R145: DATA_TIMEOUT retransmits the head of the ledger, whatever slot it names, and moves it to the tail; on an empty
ledger it raises TIMEOUT_NO_PENDING. That `env` is `envAfter` (the timer of the named slot idle, the commands performed) is the
model's choice, log entries 9 and 16. -/
def Obligations.DataTimeoutEvent : Prop :=
  ∀ (h : Header) (s : State), s.running →
    (s.ledger = [] →
      exec (.dataTimeout h) s = .next { s with
        faultReg := ⟨true, .timeoutNoPending⟩
        out := [.suspendAdmission]
        env := envAfter (.dataTimeout h) [.suspendAdmission] s.env }) ∧
    (∀ (x : Nat) (rest : List Nat), s.ledger = x :: rest →
      let ks : List Command :=
        [.stopTimer (slot hw x),
          .tx (encodeFrame hw (.data (prev hw s.frameExpected) x (memRead .outBuf (slot hw x) s))),
          .startTimer (slot hw x), .stopAckTimer, gateCommand hw h.phl false s.nbuffered]
      exec (.dataTimeout h) s = .next { s with
        ledger := rest ++ [x], out := ks, env := envAfter (.dataTimeout h) ks s.env })

/-- R164: a byte string that fails decoding draws a NAK if none is pending, and nothing else happens but the gate command
(R196). That `env` is `envAfter` is the model's choice, log entries 9 and 16. -/
def Obligations.DecodeErrorEvent : Prop :=
  ∀ (h : Header) (b : Bytes) (e : DecodeErrorCause) (s : State), s.running →
    decodeAndValidate hw b = .decodeError e →
    let ks : List Command :=
      (if s.noNak then [.tx (encodeFrame hw (.nak (prev hw s.frameExpected)))] else []) ++
        [gateCommand hw h.phl false s.nbuffered]
    exec (.frameRx h b) s = .next { s with noNak := false, out := ks, env := envAfter (.frameRx h b) ks s.env }

/-- A malformed byte string (valid checksum, no parse) is discarded with no effect on the core, which emits its gate command
alone (R196; R126 to R128, R193, D8). What the collaborators do with it (`envAfter`) is the model's choice: log entries 9 and
16. -/
def Obligations.MalformedFrameEvent : Prop :=
  ∀ (h : Header) (b : Bytes) (e : MalformedCause) (s : State), s.running →
    decodeAndValidate hw b = .malformed e →
    let ks := [gateCommand hw h.phl false s.nbuffered]
    exec (.frameRx h b) s = .next { s with out := ks, env := envAfter (.frameRx h b) ks s.env }

/-- R83: FRAME_RX of a byte string that is a frame does what the form of that frame does, whatever the state. -/
def Obligations.FrameRxIsTheFormOfItsFrame : Prop :=
  ∀ (h : Header) (b : Bytes) (s : State) (a x : Nat) (p : Packet),
    (decodeAndValidate hw b = .ok (.data a x p) → exec (.frameRx h b) s = exec (.frameRxData h a x p) s) ∧
    (decodeAndValidate hw b = .ok (.ack a) → exec (.frameRx h b) s = exec (.frameRxAck h a) s) ∧
    (decodeAndValidate hw b = .ok (.nak a) → exec (.frameRx h b) s = exec (.frameRxNak h a) s)

/-- R142 for an ACK frame: an ack value in the window releases everything up to and including it, lowest first, one
STOP_TIMER each; any other ack value releases nothing. What the collaborators do with it (`envAfter`) is the model's choice:
log entries 9 and 16. -/
def Obligations.AckFrameEvent : Prop :=
  ∀ (h : Header) (a : Nat) (s : State), s.Wf hw → s.running → a < hw.M →
    let ks := releaseStops hw a s ++ [gateCommand hw h.phl false (s.nbuffered - releaseCount hw a s)]
    exec (.frameRxAck h a) s = .next { s with
      ackExpected := if inWindow s.ackExpected a s.nextFrameToSend then inc hw a else s.ackExpected
      nbuffered := s.nbuffered - releaseCount hw a s
      ledger := releaseLedger hw a s
      out := ks
      env := envAfter (.frameRxAck h a) ks s.env }

/-- R143: a NAK frame acknowledges like any other frame and then has exactly the one frame it asks for retransmitted, if that
frame is in flight. What the collaborators do with it (`envAfter`) is the model's choice: log entries 9 and 16. -/
def Obligations.NakFrameEvent : Prop :=
  ∀ (h : Header) (a : Nat) (s : State), s.Wf hw → s.running → a < hw.M →
    let m := inc hw a
    let asked := inWindow s.ackExpected m s.nextFrameToSend
    let resend : List Command :=
      [.stopTimer (slot hw m),
        .tx (encodeFrame hw (.data (prev hw s.frameExpected) m (memRead .outBuf (slot hw m) s))),
        .startTimer (slot hw m), .stopAckTimer]
    let ks := releaseStops hw a s ++ (if asked then resend else []) ++
      [gateCommand hw h.phl false (s.nbuffered - releaseCount hw a s)]
    exec (.frameRxNak h a) s = .next { s with
      ackExpected := if inWindow s.ackExpected a s.nextFrameToSend then inc hw a else s.ackExpected
      nbuffered := s.nbuffered - releaseCount hw a s
      ledger := if asked then (releaseLedger hw a s).erase m ++ [m] else releaseLedger hw a s
      out := ks
      env := envAfter (.frameRxNak h a) ks s.env }

/-- R162, R163: the frame that is expected is delivered, and after it every buffered packet up to the next gap, in sequence
order, each followed by START_ACK_TIMER; both window edges advance together; then the acknowledgement is processed. What the
collaborators do with it (`envAfter`) is the model's choice: log entries 9 and 16. -/
def Obligations.ExpectedDataFrameEvent : Prop :=
  ∀ (h : Header) (a : Nat) (p : Packet) (s : State), s.Inv hw → s.running → a < hw.M →
    ∃ (k : Nat) (t : State),
      1 ≤ k ∧ k ≤ hw.W ∧
      (∀ j, 1 ≤ j → j < k → arrivedBit (slot hw (seqPlus hw s.frameExpected j)) s = true) ∧
      (k < hw.W → arrivedBit (slot hw (seqPlus hw s.frameExpected k)) s = false) ∧
      exec (.frameRxData h a s.frameExpected p) s = .next t ∧
      t.frameExpected = seqPlus hw s.frameExpected k ∧ t.tooFar = seqPlus hw s.tooFar k ∧ t.noNak = true ∧
      (∀ i, arrivedBit i t =
        (arrivedBit i s && !decide (∃ j, j < k ∧ slot hw (seqPlus hw s.frameExpected j) = i))) ∧
      t.inBuf = s.inBuf.set (slot hw s.frameExpected) p ∧
      t.ackExpected = (if inWindow s.ackExpected a s.nextFrameToSend then inc hw a else s.ackExpected) ∧
      t.nbuffered = s.nbuffered - releaseCount hw a s ∧ t.ledger = releaseLedger hw a s ∧
      t.nextFrameToSend = s.nextFrameToSend ∧ t.outBuf = s.outBuf ∧ t.faultReg = s.faultReg ∧ t.inbox = s.inbox ∧
      t.out = [.startAckTimer] ++ (drainPackets hw k p s).flatMap (fun q => [.deliver q, .startAckTimer]) ++
        releaseStops hw a s ++ [gateCommand hw h.phl false (s.nbuffered - releaseCount hw a s)] ∧
      t.env = envAfter (.frameRxData h a s.frameExpected p) t.out s.env

/-- R160, R161: a frame that is not the expected one but lies in the window and has not arrived draws a NAK (or arms the
ack-delay timer, if a NAK is outstanding) and is buffered; nothing is delivered; its ack field is processed. What the
collaborators do with it (`envAfter`) is the model's choice: log entries 9 and 16. -/
def Obligations.OutOfOrderDataFrameEvent : Prop :=
  ∀ (h : Header) (a x : Nat) (p : Packet) (s : State), s.Inv hw → s.running → a < hw.M → x < hw.M →
    x ≠ s.frameExpected → inWindow s.frameExpected x s.tooFar = true → arrivedBit (slot hw x) s = false →
    let ks : List Command :=
      (if s.noNak then [.tx (encodeFrame hw (.nak (prev hw s.frameExpected)))] else [.startAckTimer]) ++
        releaseStops hw a s ++ [gateCommand hw h.phl false (s.nbuffered - releaseCount hw a s)]
    exec (.frameRxData h a x p) s = .next { s with
      noNak := false
      arrived := s.arrived.set (slot hw x) true
      inBuf := s.inBuf.set (slot hw x) p
      ackExpected := if inWindow s.ackExpected a s.nextFrameToSend then inc hw a else s.ackExpected
      nbuffered := s.nbuffered - releaseCount hw a s
      ledger := releaseLedger hw a s
      out := ks
      env := envAfter (.frameRxData h a x p) ks s.env }

/-- R160, R161: a frame outside the window, or inside it and already buffered, is dropped; it still draws a NAK or arms the
ack-delay timer, and its ack field is still processed. What the collaborators do with it (`envAfter`) is the model's choice:
log entries 9 and 16. -/
def Obligations.DroppedDataFrameEvent : Prop :=
  ∀ (h : Header) (a x : Nat) (p : Packet) (s : State), s.Wf hw → s.running → a < hw.M → x ≠ s.frameExpected →
    (inWindow s.frameExpected x s.tooFar = false ∨ arrivedBit (slot hw x) s = true) →
    let ks : List Command :=
      (if s.noNak then [.tx (encodeFrame hw (.nak (prev hw s.frameExpected)))] else [.startAckTimer]) ++
        releaseStops hw a s ++ [gateCommand hw h.phl false (s.nbuffered - releaseCount hw a s)]
    exec (.frameRxData h a x p) s = .next { s with
      noNak := false
      ackExpected := if inWindow s.ackExpected a s.nextFrameToSend then inc hw a else s.ackExpected
      nbuffered := s.nbuffered - releaseCount hw a s
      ledger := releaseLedger hw a s
      out := ks
      env := envAfter (.frameRxData h a x p) ks s.env }

/-- R176: the ack field of a DATA, an ACK and a NAK frame moves the sender's lower edge and count in the same way. -/
def Obligations.EveryFrameKindAcknowledges : Prop :=
  ∀ (h : Header) (a x : Nat) (p : Packet) (s : State), s.Wf hw → s.running → a < hw.M →
    ∀ i ∈ [Instr.frameRxData h a x p, .frameRxAck h a, .frameRxNak h a],
      ∃ t, exec i s = .next t ∧
        t.ackExpected = (if inWindow s.ackExpected a s.nextFrameToSend then inc hw a else s.ackExpected) ∧
        t.nbuffered = s.nbuffered - releaseCount hw a s ∧
        t.nextFrameToSend = s.nextFrameToSend ∧ t.outBuf = s.outBuf

/-! ### Faults and the halted core -/

/-- R197: a halted core consumes every event of every kind with no state change and only SUSPEND_ADMISSION. That `env` is
`envAfter` (the event delivered, the level sampled, admission suspended) is the model's choice, log entries 9 and 16. -/
def Obligations.HaltedCoreConsumesEveryEvent : Prop :=
  ∀ (i : Instr) (s : State), isEvent i = true → s.faultReg.halted = true →
    exec i s = .next { s with out := [.suspendAdmission], env := envAfter i [.suspendAdmission] s.env }

/-- R214, R215: a station stops running only by one of the three causes, each under its own condition, and then the state is
exactly the state before but for FAULT, and the output list holds only SUSPEND_ADMISSION (the causes: R141, R145). That `env` is
`envAfter` is the model's choice, log entries 9 and 16. -/
def Obligations.FaultsArePreciseAndOfThreeCauses : Prop :=
  ∀ (i : Instr) (s t : State), exec i s = .next t → s.running → ¬t.running →
    t = { s with
      faultReg := ⟨true, t.faultReg.cause⟩
      out := [.suspendAdmission]
      env := envAfter i [.suspendAdmission] s.env } ∧
    (((∃ h p, i = .netReady h p) ∧ s.nbuffered = hw.W ∧ t.faultReg.cause = .admissionOverrun) ∨
     ((∃ h p, i = .netReady h p) ∧ s.nbuffered ≠ hw.W ∧ s.nextFrameToSend ∈ s.ledger ∧
        t.faultReg.cause = .ledgerDoubleEntry) ∨
     ((∃ h, i = .dataTimeout h) ∧ s.ledger = [] ∧ t.faultReg.cause = .timeoutNoPending))

/-! ### Whole-machine rules -/

/-- R196: every event ends with exactly one gate command, RESUME_ADMISSION if and only if the station runs, the window has room
and the physical layer is ready. -/
def Obligations.GateCommandEndsEveryEvent : Prop :=
  ∀ (i : Instr) (s : State), isEvent i = true →
    ∃ (t : State) (ks : List Command), exec i s = .next t ∧
      t.out = ks ++ [if t.faultReg.halted = false ∧ t.nbuffered < 8 ∧ i.header.phl = true
        then .resumeAdmission else .suspendAdmission] ∧
      ∀ k ∈ ks, k.isGate = false

/-- R182: no event makes the core emit more than one TX; PHY_READY, an ACK frame and a malformed frame emit none. -/
def Obligations.AtMostOneFramePerEvent : Prop :=
  ∀ (i : Instr) (s t : State), exec i s = .next t →
    t.out.countP Command.isTx ≤ 1 ∧
    ((∃ h, i = .phyReady h) ∨ (∃ h a, i = .frameRxAck h a) ∨
      (∃ h b e, i = .frameRx h b ∧ decodeAndValidate hw b = .malformed e) → t.out.countP Command.isTx = 0)

/-- R198: the bounds on the outputs of one event. -/
def Obligations.OutputsOfOneEventAreBounded : Prop :=
  ∀ (i : Instr) (s t : State), s.Inv hw → i.wf hw = true → exec i s = .next t →
    t.out.countP Command.isTx ≤ 1 ∧ t.out.countP Command.isDeliver ≤ 8 ∧
    t.out.countP Command.isStopTimer ≤ 9 ∧ t.out.countP Command.isStartTimer ≤ 1 ∧
    t.out.count .startAckTimer ≤ 9 ∧ t.out.count .stopAckTimer ≤ 1 ∧ t.out.countP Command.isGate = 1

/-- The writers of every register (R20's table, R52, R53): what each event leaves unchanged. -/
def Obligations.OnlyTheNamedEventsWriteARegister : Prop :=
  ∀ (i : Instr) (s t : State), exec i s = .next t →
    ((∀ h p, i ≠ .netReady h p) → t.nextFrameToSend = s.nextFrameToSend ∧ t.outBuf = s.outBuf) ∧
    ((∀ h b, i ≠ .frameRx h b) → (∀ h a x p, i ≠ .frameRxData h a x p) → SameReceiver s t) ∧
    ((∃ h, i = .phyReady h) ∨ (∃ h, i = .ackTimeout h) ∨
      (∃ h b, i = .frameRx h b ∧ isFrame hw b = false) → SameSender s t) ∧
    ((∃ h p, i = .netReady h p) ∨ (∃ h, i = .dataTimeout h) → t.ackExpected = s.ackExpected) ∧
    ((∃ h, i = .dataTimeout h) → t.nbuffered = s.nbuffered) ∧
    ((∀ h p, i ≠ .netReady h p) → (∀ h, i ≠ .dataTimeout h) → t.faultReg = s.faultReg) ∧
    t.inbox = s.inbox

/-- The core cannot read the collaborators' state (R40): events on two stations whose cores agree leave cores that agree and emit
the same commands, whatever the collaborators, the waiting events and the last outputs are. -/
def Obligations.CoreIgnoresItsCollaborators : Prop :=
  ∀ (i : Instr) (s s' t t' : State), SameCore s s' → exec i s = .next t → exec i s' = .next t' →
    SameCore t t' ∧ t.out = t'.out

/-- R80, R145: the reserved header bit and the slot field are ignored by the core, of DATA_TIMEOUT too. -/
def Obligations.SlotFieldAndReservedBitAreIgnored : Prop :=
  ∀ (h h' : Header) (s : State), h.phl = h'.phl →
    (∀ p, exec (.netReady h p) s = exec (.netReady h' p) s) ∧
    exec (.phyReady h) s = exec (.phyReady h') s ∧
    (∀ b, exec (.frameRx h b) s = exec (.frameRx h' b) s) ∧
    (∀ a x p, exec (.frameRxData h a x p) s = exec (.frameRxData h' a x p) s) ∧
    (∀ a, exec (.frameRxAck h a) s = exec (.frameRxAck h' a) s) ∧
    (∀ a, exec (.frameRxNak h a) s = exec (.frameRxNak h' a) s) ∧
    exec (.ackTimeout h) s = exec (.ackTimeout h') s ∧
    ∃ t t', exec (.dataTimeout h) s = .next t ∧ exec (.dataTimeout h') s = .next t' ∧ SameCore t t' ∧ t.out = t'.out

/-- The collaborators perform exactly the commands of the event, in list order (R61, R221 to R224; log entries 9 and 16). What each
command does to its collaborator is the next statement. -/
def Obligations.CollaboratorsPerformTheOutputs : Prop :=
  ∀ (i : Instr) (s t : State), exec i s = .next t → t.env = envAfter i t.out s.env

/-- What a command does to the collaborator it is addressed to, and that it does nothing to the others (R221 to R224); that
commands are performed first to last (R61); what the delivery of an event does (R221 to R224); that a rise of the readiness
level makes a PHY_READY due (R223); and that `envAfter` is delivery, sampling, the commands, and then what the collaborators
do on their own, which neither arms nor stops a timer, leaves the admission level, and loses no frame and no waiting packet.
The contracts are the spec's assumption (D27) and how the model keeps
them is log entries 9, 10 (a double start) and 16. -/
def Obligations.CommandsActOnTheirCollaborator : Prop :=
  ∀ e : Env,
    (∀ i, i < e.timers.length → e.armed i = false → ∃ ts : List Bool,
      e.performOne (.startTimer i) = { e with timers := ts } ∧ ts.length = e.timers.length ∧
      ∀ j, ts.getD j false = if j = i then true else e.armed j) ∧
    (∀ i, e.armed i = true → e.performOne (.startTimer i) = { e with doubleStart := true }) ∧
    (∀ i, ∃ ts : List Bool,
      e.performOne (.stopTimer i) = { e with timers := ts } ∧ ts.length = e.timers.length ∧
      ∀ j, ts.getD j false = if j = i then false else e.armed j) ∧
    (∀ i, e.armed i = false → e.performOne (.stopTimer i) = e) ∧
    e.performOne .startAckTimer = { e with ackTimer := true } ∧
    e.performOne .stopAckTimer = { e with ackTimer := false } ∧
    (∀ b, e.performOne (.tx b) = { e with accepted := e.accepted ++ [b] }) ∧
    (∀ p, e.performOne (.deliver p) = { e with delivered := e.delivered ++ [p] }) ∧
    e.performOne .resumeAdmission = { e with netResumed := true } ∧
    e.performOne .suspendAdmission = { e with netResumed := false } ∧
    e.perform [] = e ∧ (∀ k ks, e.perform (k :: ks) = (e.performOne k).perform ks) ∧
    (∀ h, eventDelivery (.dataTimeout h) e = e.performOne (.stopTimer h.slot)) ∧
    (∀ h, eventDelivery (.ackTimeout h) e = { e with ackTimer := false }) ∧
    (∀ h p, eventDelivery (.netReady h p) e = { e with netWaiting := false }) ∧
    (∀ h, eventDelivery (.phyReady h) e = { e with
      phlReady := e.phlReady || decide (e.phyDue = 0), phyDue := e.phyDue - 1 }) ∧
    (∀ i, (∀ h, i ≠ .dataTimeout h) → (∀ h, i ≠ .ackTimeout h) → (∀ h p, i ≠ .netReady h p) → (∀ h, i ≠ .phyReady h) →
      eventDelivery i e = e) ∧
    e.sampled false = { e with phlReady := false } ∧
    e.sampled true = { e with phlReady := true, phyDue := if e.phlReady then e.phyDue else e.phyDue + 1 } ∧
    (∀ i ks, envAfter i ks e = (((eventDelivery i e).sampled i.header.phl).perform ks).elapse hw) ∧
    ∃ (waiting sent : List Bytes) (more level : Bool),
      e.elapse hw = { e.sampled level with
        accepted := waiting, onWire := e.onWire ++ sent, netWaiting := e.netWaiting || more, moments := e.moments + 1 } ∧
      (sent ++ waiting).Perm e.accepted

/-- R223's "a PHY_READY event is delivered when it becomes true", counted: an event sees the level twice, where it samples it and
where it ends, and each time the level has become true since it was last seen one more PHY_READY is due, whatever the event;
so it is in a step that waits, which sees the level once. The delivery of a PHY_READY takes one due one away; with none due it
is itself a sight of the level, found high. One is allowed where one is due, or where the level is low and may rise just now.
That the model keeps this, and when it sees the level, is the model's choice: log entries 9 and 16. -/
def Obligations.PhyReadyIsDueForEveryRise : Prop :=
  (∀ (i : Instr) (s t : State), (∀ h, i ≠ .phyReady h) → exec i s = .next t →
    t.env.phyDue = s.env.phyDue + rise s.env.phlReady i.header.phl + rise i.header.phl t.env.phlReady) ∧
  (∀ (h : Header) (s t : State), exec (.phyReady h) s = .next t →
    (0 < s.env.phyDue →
      t.env.phyDue = s.env.phyDue - 1 + rise s.env.phlReady h.phl + rise h.phl t.env.phlReady) ∧
    (s.env.phyDue = 0 → t.env.phyDue = rise h.phl t.env.phlReady)) ∧
  (∀ s t : State, s.inbox = [] → step s = .next t →
    t.env.phyDue = s.env.phyDue + rise s.env.phlReady t.env.phlReady) ∧
  (∀ (h : Header) (e : Env), e.allows (.phyReady h) = true ↔ 0 < e.phyDue ∨ e.phlReady = false)

/-- The physical layer takes every TX and keeps it until it puts it on the wire (R40, R223): after an event, the frames on the
wire and the frames waiting are those of before and the TX frames of the event, none lost and none invented, and what was on
the wire stays there. In what order and when frames go out is open: log entry 16. -/
def Obligations.AcceptedFramesWaitOrAreOnTheWire : Prop :=
  ∀ (i : Instr) (s t : State), exec i s = .next t →
    (∃ sent, t.env.onWire = s.env.onWire ++ sent) ∧
    (t.env.onWire ++ t.env.accepted).Perm
      (s.env.onWire ++ s.env.accepted ++ t.out.filterMap fun k => match k with
        | .tx b => some b
        | _ => none)

/-- A packet that waits in the network layer waits, admission suspended or not, until a NET_READY hands it over (R40, R224; log
entry 16). -/
def Obligations.WaitingPacketStaysUntilHandedOver : Prop :=
  ∀ (i : Instr) (s t : State), s.env.netWaiting = true → (∀ h p, i ≠ .netReady h p) → exec i s = .next t →
    t.env.netWaiting = true

/-- R165, R180: while a NAK is outstanding no NAK is transmitted, and `no_nak` returns to true only when `frame_expected`
advances. -/
def Obligations.NoSecondNakForAGap : Prop :=
  ∀ (i : Instr) (s t : State), s.Inv hw → i.wf hw = true → s.noNak = false → exec i s = .next t →
    (∀ a, Command.tx (encodeFrame hw (.nak a)) ∉ t.out) ∧
    (t.noNak = true → t.frameExpected ≠ s.frameExpected)

/-- The document's idempotence property (R161): once a DATA frame of the window has arrived, a second one with its sequence number
delivers nothing and leaves the window, the bitmap and the buffer as they are. -/
def Obligations.DuplicateDataFrameIsDeliveredOnce : Prop :=
  ∀ (h h' : Header) (a a' x : Nat) (p p' : Packet) (s t u : State), s.Inv hw → s.running → x < hw.M →
    inWindow s.frameExpected x s.tooFar = true →
    exec (.frameRxData h a x p) s = .next t → exec (.frameRxData h' a' x p') t = .next u →
    u.out.countP Command.isDeliver = 0 ∧ u.frameExpected = t.frameExpected ∧ u.tooFar = t.tooFar ∧
    u.arrived = t.arrived ∧ u.inBuf = t.inBuf

/-- A repeated acknowledgement releases nothing (R142, corner cases): after an ACK frame, a second one with the same ack
value emits its gate command and changes nothing else of the core. What the collaborators do with it (`envAfter`) is the
model's choice: log entries 9 and 16. -/
def Obligations.RepeatedAckReleasesNothing : Prop :=
  ∀ (h h' : Header) (a : Nat) (s t : State), s.Wf hw → s.running → a < hw.M →
    exec (.frameRxAck h a) s = .next t →
    exec (.frameRxAck h' a) t = .next { t with
      out := [gateCommand hw h'.phl false t.nbuffered]
      env := envAfter (.frameRxAck h' a) [gateCommand hw h'.phl false t.nbuffered] t.env }

/-- Every frame the core emits is one that a station of the same build decodes, and carries the current ack value (R85, R175). -/
def Obligations.EmittedFramesAreValidAndCarryTheAckValue : Prop :=
  ∀ (i : Instr) (s t : State), s.Inv hw → i.wf hw = true → exec i s = .next t →
    ∀ b, Command.tx b ∈ t.out →
      ∃ f, decodeAndValidate hw b = .ok f ∧ f.ackField = prev hw t.frameExpected

/-- The window advances by one for each packet delivered (R162). -/
def Obligations.WindowAdvancesByTheDeliveries : Prop :=
  ∀ (i : Instr) (s t : State), s.Inv hw → i.wf hw = true → exec i s = .next t →
    t.frameExpected = (s.frameExpected + t.out.countP Command.isDeliver) % 16 ∧
    t.tooFar = (s.tooFar + t.out.countP Command.isDeliver) % 16

/-! ### Headline results -/

/-- Every step keeps the invariants: the sender's count is its window's length (R36), the receiver's window has length W (R37),
the ledger is the set of frames in flight (R38), the expected slot is free (R39), every armed timer is that of a frame in
flight and none has been started twice (R221), admission is resumed only while there is room (R224). -/
def Obligations.StepKeepsTheInvariants : Prop :=
  ∀ s t : State, s.Inv hw → step s = .next t → t.Inv hw

/-- Under the collaborators' contracts (R221 to R224), and under a spurious PHY_READY or ACK_TIMEOUT too, which R213 says is
handled as a genuine one, a running station never halts: "a DATA_TIMEOUT never meets an empty
ledger", "a NET_READY … always finds `nbuffered < W`", and LEDGER_DOUBLE_ENTRY is unreachable (R111). -/
def Obligations.ContractKeepsTheStationRunning : Prop :=
  ∀ (s : State) (i : Instr), s.Inv hw → s.running → i.wf hw = true →
    (s.env.allows i = true ∨ (∃ h, i = .phyReady h) ∨ ∃ h, i = .ackTimeout h) →
    ∃ t, exec i s = .next t ∧ t.running ∧ t.Inv hw

/-- In-order, exactly-once delivery (R162, R256): if the frames of the window that come in carry the peer's packets `P 0, P 1, …`
under their numbers, then after every event, whatever the order, the losses and the repetitions, the packets delivered
are exactly a prefix of `P`, each once and in order. -/
def Obligations.DeliveryIsInOrderAndExactlyOnce : Prop :=
  ∀ (P : Nat → Packet) (N : Nat) (i : Instr) (s t : State),
    s.Inv hw → DeliveredPrefix hw P N s → i.wf hw = true →
    (∀ h a x p, i = .frameRxData h a x p → inWindow s.frameExpected x s.tooFar = true →
      p = P (N + dist hw s.frameExpected x)) →
    exec i s = .next t → ∃ k, k ≤ 8 ∧ DeliveredPrefix hw P (N + k) t

/-- Buffer validity (R39): every DATA frame the core transmits, for the first time or again, carries the packet that was admitted
under its sequence number. -/
def Obligations.TransmittedDataIsWhatWasAdmitted : Prop :=
  ∀ (Q : Nat → Packet) (N : Nat) (i : Instr) (s t : State),
    s.Inv hw → AdmittedHeld hw Q N s → i.wf hw = true → (∀ h p, i = .netReady h p → p = Q N) →
    exec i s = .next t →
    ∃ N', N ≤ N' ∧ N' ≤ N + 1 ∧ AdmittedHeld hw Q N' t ∧
      ∀ b a x p, Command.tx b ∈ t.out → decodeAndValidate hw b = .ok (.data a x p) →
        ∃ k, N - s.nbuffered ≤ k ∧ k < N' ∧ x = k % 16 ∧ p = Q k
end

