-- ==== Sys2Proof/Laws/Config.lean ====
section
/-! SUPPORT. Facts about the parameters: the numbers of this hardware, and what every legal build has. -/

namespace Sys2Proof.Config

/-! The numbers of n = 4. The parenthesised proofs keep `simp` from rewriting below a `Decidable` instance only by unfolding,
which would leave the instance behind. -/

@[simp] theorem hw_n : hw.n = 4 := (rfl)
@[simp] theorem hw_M : hw.M = 16 := (rfl)
@[simp] theorem hw_maxSeq : hw.maxSeq = 15 := (rfl)
@[simp] theorem hw_W : hw.W = 8 := (rfl)
@[simp] theorem hw_hdrBits : hw.hdrBits = 8 := (rfl)

/-- This hardware's parameters are as the spec says parameters are. -/
theorem hw_legal : hw.Legal where
  n_pos := by decide
  n_le := by decide
  pktLen_pos := Nat.succ_le_succ (Nat.zero_le _)
  data_ne_ack := by simp [hw]
  data_ne_nak := by simp [hw]
  ack_ne_nak := by simp [hw]

namespace Legal

variable {c : Config} (h : c.Legal)
include h

theorem M_eq : c.M = 2 * c.W := by
  obtain ⟨k, hk⟩ := Nat.exists_eq_add_of_le h.n_pos
  simp [Config.M, Config.W, hk, Nat.pow_add]

theorem W_pos : 0 < c.W := by
  obtain ⟨k, hk⟩ := Nat.exists_eq_add_of_le h.n_pos
  simp [Config.W, Config.M, hk, Nat.pow_add]

theorem M_pos : 0 < c.M := by
  have := h.M_eq; have := h.W_pos; omega

theorem M_le : c.M ≤ 256 := by
  have := Nat.pow_le_pow_right (n := 2) (by decide) h.n_le
  simpa [Config.M] using this

theorem maxSeq_succ : c.maxSeq + 1 = c.M := by
  have := h.M_pos; simp [Config.maxSeq]; omega

end Legal

end Sys2Proof.Config
end

