-- ==== Sys2Proof/Laws/Arith.lean ====
section
/-! SUPPORT. The sequence arithmetic without the remainder: for numbers in range each operation is a case distinction, which
`omega` can use. -/

namespace Sys2Proof.Machine

open Sys2Proof

variable {c : Config} (hc : c.Legal)
include hc

theorem inc_lt (s : Nat) : inc c s < c.M := Nat.mod_lt _ hc.M_pos

theorem prev_lt (s : Nat) : prev c s < c.M := Nat.mod_lt _ hc.M_pos

theorem slot_lt (s : Nat) : slot c s < c.W := Nat.mod_lt _ hc.W_pos

theorem dist_lt (a b : Nat) : dist c a b < c.M := Nat.mod_lt _ hc.M_pos

theorem seqPlus_lt (x i : Nat) : seqPlus c x i < c.M := Nat.mod_lt _ hc.M_pos

omit hc in
theorem inc_eq {s : Nat} (h : s < c.M) : inc c s = if s + 1 = c.M then 0 else s + 1 := by
  unfold inc
  split
  · rename_i h1; rw [h1, Nat.mod_self]
  · exact Nat.mod_eq_of_lt (by omega)

theorem prev_eq {s : Nat} (h : s < c.M) : prev c s = if s = 0 then c.M - 1 else s - 1 := by
  have hm := hc.maxSeq_succ
  unfold prev
  split
  · rename_i h1; subst h1; rw [Nat.mod_eq_of_lt (by omega)]; omega
  · rw [show s + c.maxSeq = (s - 1) + c.M by omega, Nat.add_mod_right, Nat.mod_eq_of_lt (by omega)]

theorem slot_eq {s : Nat} (h : s < c.M) : slot c s = if s < c.W then s else s - c.W := by
  have hm := hc.M_eq
  unfold slot
  split
  · exact Nat.mod_eq_of_lt ‹_›
  · rw [Nat.mod_eq_sub_mod (by omega), Nat.mod_eq_of_lt (by omega)]

omit hc in
theorem dist_eq {a b : Nat} (ha : a < c.M) (hb : b < c.M) :
    dist c a b = if a ≤ b then b - a else b + c.M - a := by
  unfold dist
  split
  · rw [show b + c.M - a = (b - a) + c.M by omega, Nat.add_mod_right, Nat.mod_eq_of_lt (by omega)]
  · exact Nat.mod_eq_of_lt (by omega)

omit hc in
theorem seqPlus_eq {x i : Nat} (hx : x < c.M) (hi : i < c.M) :
    seqPlus c x i = if x + i < c.M then x + i else x + i - c.M := by
  unfold seqPlus
  split
  · exact Nat.mod_eq_of_lt ‹_›
  · rw [Nat.mod_eq_sub_mod (by omega), Nat.mod_eq_of_lt (by omega)]

omit hc in
theorem tooFar_eq_seqPlus (x : Nat) : (x + c.W) % c.M = seqPlus c x c.W := rfl

omit hc in
theorem inWindow_iff {l x h : Nat} :
    inWindow l x h = true ↔ (l ≤ x ∧ x < h) ∨ (h < l ∧ l ≤ x) ∨ (x < h ∧ h < l) := by
  simp [inWindow, or_assoc]

omit hc in
theorem inWindow_eq_false_iff {l x h : Nat} :
    inWindow l x h = false ↔ ¬((l ≤ x ∧ x < h) ∨ (h < l ∧ l ≤ x) ∨ (x < h ∧ h < l)) := by
  rw [← inWindow_iff]; simp

end Sys2Proof.Machine
end

