-- ==== Sys2Proof/Laws/Codec.lean ====
section
/-! SUPPORT. Small facts about the codec: the checksum bytes invert, a sequence number survives its byte, lengths. -/

namespace Sys2Proof.Machine

open Sys2Proof

/-- On this hardware the slot field has three bits and the reserved field one (R80). -/
theorem header_wf_hw (h : Header) : h.wf Config.hw = true ↔ h.slot < 8 ∧ h.reserved < 2 := by
  simp only [Header.wf, Config.hw_W, Config.hw_hdrBits, Config.hw_n, Bool.and_eq_true]
  exact ⟨fun h => ⟨of_decide_eq_true h.1, of_decide_eq_true h.2⟩,
    fun h => ⟨decide_eq_true h.1, decide_eq_true h.2⟩⟩

@[simp] theorem ckBytes_length (o : ByteOrder) (v : Word32) : (ckBytes o v).length = 4 := by
  cases o <;> rfl

/-- `CkValue` is the inverse of `CkBytes` (R121). -/
theorem ckValue_ckBytes (o : ByteOrder) (v : Word32) : ckValue o (ckBytes o v) = v := by
  cases o <;> simp only [ckBytes, ckValue, byteAt, List.getD_cons_zero, List.getD_cons_succ] <;> ext i hi <;>
    simp only [BitVec.getElem_append, BitVec.getElem_extractLsb'] <;> split_ifs <;>
    simp [← BitVec.getLsbD_eq_getElem] <;> congr 1 <;> omega

theorem getLsbD_cat4 (w x y z : Byte) (k : Nat) :
    BitVec.getLsbD (w := 32) (w ++ x ++ y ++ z) k =
      if k < 8 then z.getLsbD k else if k - 8 < 8 then y.getLsbD (k - 8)
      else if k - 8 - 8 < 8 then x.getLsbD (k - 8 - 8) else w.getLsbD (k - 8 - 8 - 8) := by
  have h1 := BitVec.getLsbD_append (x := w ++ x ++ y) (y := z) (i := k)
  rw [BitVec.getLsbD_append (x := w ++ x) (y := y), BitVec.getLsbD_append (x := w) (y := x)] at h1
  exact h1

/-- `CkBytes` is the inverse of `CkValue` on four-byte strings (R121). -/
theorem ckBytes_ckValue (o : ByteOrder) {b : Bytes} (h : b.length = 4) : ckBytes o (ckValue o b) = b := by
  match b, h with
  | [b0, b1, b2, b3], _ =>
    cases o <;> simp only [ckBytes, ckValue, byteAt, List.getD_cons_zero, List.getD_cons_succ, List.cons.injEq,
      and_true] <;> refine ⟨?_, ?_, ?_, ?_⟩ <;> ext i hi <;>
      rw [BitVec.getElem_extractLsb', getLsbD_cat4, ← BitVec.getLsbD_eq_getElem] <;> split_ifs <;>
      first
        | omega
        | (congr 1; omega)

theorem seqByte_toNat {c : Config} (hc : c.Legal) {a : Nat} (h : a ≤ c.maxSeq) : (seqByte a).toNat = a := by
  have h1 := hc.M_le; have h2 := hc.maxSeq_succ
  simp only [seqByte, BitVec.toNat_ofNat]
  exact Nat.mod_eq_of_lt (by omega)

@[simp] theorem seqByte_of_toNat (b : Byte) : seqByte b.toNat = b := by simp [seqByte]

/-- The length of an encoded frame (R120). -/
theorem encodeFrame_length (c : Config) (f : Frame) : (encodeFrame c f).length = (frameBody c f).length + 4 := by
  simp [encodeFrame]

/-- The kind byte of an encoded frame tells its kind (R74). -/
theorem encodeFrame_ne_nak {c : Config} (hc : c.Legal) (a b x : Nat) (p : Packet) :
    encodeFrame c (.data a x p) ≠ encodeFrame c (.nak b) ∧ encodeFrame c (.ack a) ≠ encodeFrame c (.nak b) := by
  constructor
  · intro h
    have h1 := congrArg (fun l => List.head? l) h
    simp [encodeFrame, frameBody] at h1
    exact hc.data_ne_nak h1
  · intro h
    have h1 := congrArg (fun l => List.head? l) h
    simp [encodeFrame, frameBody] at h1
    exact hc.ack_ne_nak h1

end Sys2Proof.Machine
end

