-- ==== Sys2Proof/Laws/Collaborators.lean ====
section
/-! SUPPORT. What performing output commands does to the collaborators, one field at a time. -/

namespace Sys2Proof.Machine

open Sys2Proof

@[simp] theorem perform_nil (e : Env) : e.perform [] = e := rfl

@[simp] theorem perform_cons (k : Command) (ks : List Command) (e : Env) :
    e.perform (k :: ks) = (e.performOne k).perform ks := rfl

theorem perform_append (ks ls : List Command) (e : Env) : e.perform (ks ++ ls) = (e.perform ks).perform ls := by
  simp [Env.perform, List.foldl_append]

@[simp] theorem sampled_fields (phl : Bool) (e : Env) :
    (e.sampled phl).timers = e.timers ∧ (e.sampled phl).ackTimer = e.ackTimer ∧ (e.sampled phl).phlReady = phl ∧
    (e.sampled phl).phyDue = (if phl && !e.phlReady then e.phyDue + 1 else e.phyDue) ∧
    (e.sampled phl).netResumed = e.netResumed ∧ (e.sampled phl).netWaiting = e.netWaiting ∧
    (e.sampled phl).accepted = e.accepted ∧ (e.sampled phl).onWire = e.onWire ∧
    (e.sampled phl).delivered = e.delivered ∧ (e.sampled phl).doubleStart = e.doubleStart ∧
    (e.sampled phl).moments = e.moments :=
  ⟨rfl, rfl, rfl, rfl, rfl, rfl, rfl, rfl, rfl, rfl, rfl⟩

@[simp] theorem riseAnnounced_fields (e : Env) :
    e.riseAnnounced.timers = e.timers ∧ e.riseAnnounced.ackTimer = e.ackTimer ∧
    e.riseAnnounced.phlReady = (e.phlReady || decide (e.phyDue = 0)) ∧ e.riseAnnounced.phyDue = e.phyDue - 1 ∧
    e.riseAnnounced.netResumed = e.netResumed ∧ e.riseAnnounced.netWaiting = e.netWaiting ∧
    e.riseAnnounced.accepted = e.accepted ∧ e.riseAnnounced.onWire = e.onWire ∧
    e.riseAnnounced.delivered = e.delivered ∧ e.riseAnnounced.doubleStart = e.doubleStart ∧
    e.riseAnnounced.moments = e.moments :=
  ⟨rfl, rfl, rfl, rfl, rfl, rfl, rfl, rfl, rfl, rfl, rfl⟩

@[simp] theorem packetTaken_fields (e : Env) :
    e.packetTaken.timers = e.timers ∧ e.packetTaken.ackTimer = e.ackTimer ∧ e.packetTaken.phlReady = e.phlReady ∧
    e.packetTaken.phyDue = e.phyDue ∧
    e.packetTaken.netResumed = e.netResumed ∧ e.packetTaken.netWaiting = false ∧
    e.packetTaken.accepted = e.accepted ∧ e.packetTaken.onWire = e.onWire ∧ e.packetTaken.delivered = e.delivered ∧
    e.packetTaken.doubleStart = e.doubleStart ∧ e.packetTaken.moments = e.moments :=
  ⟨rfl, rfl, rfl, rfl, rfl, rfl, rfl, rfl, rfl, rfl, rfl⟩

/-- What the collaborators do on their own touches the level and the PHY_READYs due, the waiting frames, the wire, the waiting
packet and the counter only. -/
@[simp] theorem elapse_fields (c : Config) (e : Env) :
    (e.elapse c).timers = e.timers ∧ (e.elapse c).ackTimer = e.ackTimer ∧ (e.elapse c).phlReady = c.phyLevel e.moments ∧
    (e.elapse c).phyDue = (if c.phyLevel e.moments && !e.phlReady then e.phyDue + 1 else e.phyDue) ∧
    (e.elapse c).netResumed = e.netResumed ∧ (e.elapse c).netWaiting = (e.netWaiting || c.netOffers e.moments) ∧
    (e.elapse c).accepted = picked (fun j => !c.phySends e.moments j) e.accepted ∧
    (e.elapse c).onWire = e.onWire ++ picked (c.phySends e.moments) e.accepted ∧
    (e.elapse c).delivered = e.delivered ∧ (e.elapse c).doubleStart = e.doubleStart ∧
    (e.elapse c).moments = e.moments + 1 :=
  ⟨rfl, rfl, rfl, rfl, rfl, rfl, rfl, rfl, rfl, rfl, rfl⟩

@[simp] theorem armed_elapse (c : Config) (i : Nat) (e : Env) : (e.elapse c).armed i = e.armed i := rfl

/-- The picked entries and the others are all the entries. -/
theorem picked_perm (b : Nat → Bool) (l : List Bytes) : (picked b l ++ picked (fun j => !b j) l).Perm l := by
  unfold picked
  rw [← List.map_append]
  simpa using (List.filter_append_perm (fun x : Bytes × Nat => b x.2) l.zipIdx).map Prod.fst

@[simp] theorem stopTimer_fields (i : Nat) (e : Env) :
    (e.stopTimer i).timers = e.timers.set i false ∧ (e.stopTimer i).ackTimer = e.ackTimer ∧
    (e.stopTimer i).phlReady = e.phlReady ∧ (e.stopTimer i).phyDue = e.phyDue ∧
    (e.stopTimer i).netResumed = e.netResumed ∧
    (e.stopTimer i).netWaiting = e.netWaiting ∧ (e.stopTimer i).accepted = e.accepted ∧
    (e.stopTimer i).onWire = e.onWire ∧ (e.stopTimer i).delivered = e.delivered ∧
    (e.stopTimer i).doubleStart = e.doubleStart ∧ (e.stopTimer i).moments = e.moments :=
  ⟨rfl, rfl, rfl, rfl, rfl, rfl, rfl, rfl, rfl, rfl, rfl⟩

/-- STOP_TIMER leaves the slot idle and the others as they were (R221). -/
theorem armed_stopTimer (i j : Nat) (e : Env) :
    (e.stopTimer i).armed j = (e.armed j && !decide (i = j)) := by
  unfold Env.armed
  rw [(stopTimer_fields i e).1]
  by_cases h : i = j
  · subst h
    rw [List.getD_eq_getElem?_getD, List.getElem?_set_self']
    cases e.timers[i]? <;> simp
  · rw [List.getD_eq_getElem?_getD, List.getElem?_set_ne h, ← List.getD_eq_getElem?_getD]; simp [h]

/-- START_TIMER on an idle timer arms it and no other, and is no violation (R221). -/
theorem startTimer_idle {i : Nat} {e : Env} (h : e.armed i = false) :
    e.startTimer i = { e with timers := e.timers.set i true } := by
  simp [Env.startTimer, h]

theorem armed_startTimer_idle {i : Nat} {e : Env} (h : e.armed i = false) (j : Nat) :
    (e.startTimer i).armed j = true → i = j ∨ e.armed j = true := by
  rw [startTimer_idle h]
  intro hj
  by_cases hij : i = j
  · exact .inl hij
  · refine .inr ?_
    unfold Env.armed at hj ⊢
    rwa [List.getD_eq_getElem?_getD, List.getElem?_set_ne hij, ← List.getD_eq_getElem?_getD] at hj

/-- A run of STOP_TIMER commands (R142). -/
theorem armed_perform_stops (is : List Nat) (j : Nat) (e : Env) :
    (e.perform (is.map .stopTimer)).armed j = (e.armed j && !decide (j ∈ is)) := by
  induction is generalizing e with
  | nil => simp
  | cons i is ih =>
    simp only [List.map_cons, perform_cons, Env.performOne]
    rw [ih, armed_stopTimer]
    by_cases h1 : i = j
    · subst h1; simp
    · have h3 : ¬ j = i := fun e => h1 e.symm
      simp [h1, h3]

/-- What the network layer has been given grows by the packets of the event, in order (R61, R224). -/
theorem delivered_perform (ks : List Command) (e : Env) :
    (e.perform ks).delivered = e.delivered ++ ks.filterMap fun k => match k with
      | .deliver p => some p
      | _ => none := by
  induction ks generalizing e with
  | nil => simp
  | cons k ks ih =>
    rw [perform_cons, ih]
    cases k <;> simp [Env.performOne]
    · unfold Env.startTimer; split <;> rfl

/-- The physical layer accepts the TX frames of the event, in order, behind those that wait (R61, R223). -/
theorem accepted_perform (ks : List Command) (e : Env) :
    (e.perform ks).accepted = e.accepted ++ ks.filterMap fun k => match k with
      | .tx b => some b
      | _ => none := by
  induction ks generalizing e with
  | nil => simp
  | cons k ks ih =>
    rw [perform_cons, ih]
    cases k <;> simp [Env.performOne]
    · unfold Env.startTimer; split <;> rfl

/-- No command changes the level, the PHY_READYs due, whether a packet waits, what is on the wire, or the counter (R84). -/
theorem own_perform (ks : List Command) (e : Env) :
    (e.perform ks).netWaiting = e.netWaiting ∧ (e.perform ks).onWire = e.onWire ∧
    (e.perform ks).moments = e.moments ∧ (e.perform ks).phlReady = e.phlReady ∧ (e.perform ks).phyDue = e.phyDue := by
  induction ks generalizing e with
  | nil => exact ⟨rfl, rfl, rfl, rfl, rfl⟩
  | cons k ks ih =>
    rw [perform_cons]
    obtain ⟨h1, h2, h3, h4, h5⟩ := ih (e.performOne k)
    rw [h1, h2, h3, h4, h5]
    cases k <;> simp [Env.performOne]
    · unfold Env.startTimer; split <;> exact ⟨rfl, rfl, rfl, rfl, rfl⟩

/-- The number of timers never changes (R221). -/
theorem timers_length_perform (ks : List Command) (e : Env) : (e.perform ks).timers.length = e.timers.length := by
  induction ks generalizing e with
  | nil => rfl
  | cons k ks ih =>
    rw [perform_cons, ih]
    cases k <;> simp [Env.performOne]
    · unfold Env.startTimer; split <;> simp

end Sys2Proof.Machine
end

