-- ==== Sys2Proof/Laws/State.lean ====
section
/-! SUPPORT. One lemma per named update of the state: what it does to every field, true by `rfl`. A conjunction is split by
`simp` into one rewriting rule per field. -/

namespace Sys2Proof.Machine

open Sys2Proof

@[simp] theorem emit_fields (k : Command) (s : State) :
    (emit k s).ackExpected = s.ackExpected ∧ (emit k s).nextFrameToSend = s.nextFrameToSend ∧
    (emit k s).nbuffered = s.nbuffered ∧ (emit k s).outBuf = s.outBuf ∧ (emit k s).frameExpected = s.frameExpected ∧
    (emit k s).tooFar = s.tooFar ∧ (emit k s).arrived = s.arrived ∧ (emit k s).inBuf = s.inBuf ∧
    (emit k s).noNak = s.noNak ∧ (emit k s).ledger = s.ledger ∧ (emit k s).faultReg = s.faultReg ∧
    (emit k s).out = s.out ++ [k] ∧ (emit k s).inbox = s.inbox ∧ (emit k s).env = s.env :=
  ⟨rfl, rfl, rfl, rfl, rfl, rfl, rfl, rfl, rfl, rfl, rfl, rfl, rfl, rfl⟩

@[simp] theorem memWrite_outBuf_fields (i : Nat) (p : Packet) (s : State) :
    (memWrite .outBuf i p s).ackExpected = s.ackExpected ∧ (memWrite .outBuf i p s).nextFrameToSend = s.nextFrameToSend ∧
    (memWrite .outBuf i p s).nbuffered = s.nbuffered ∧ (memWrite .outBuf i p s).outBuf = s.outBuf.set i p ∧
    (memWrite .outBuf i p s).frameExpected = s.frameExpected ∧ (memWrite .outBuf i p s).tooFar = s.tooFar ∧
    (memWrite .outBuf i p s).arrived = s.arrived ∧ (memWrite .outBuf i p s).inBuf = s.inBuf ∧
    (memWrite .outBuf i p s).noNak = s.noNak ∧ (memWrite .outBuf i p s).ledger = s.ledger ∧
    (memWrite .outBuf i p s).faultReg = s.faultReg ∧ (memWrite .outBuf i p s).out = s.out ∧
    (memWrite .outBuf i p s).inbox = s.inbox ∧ (memWrite .outBuf i p s).env = s.env :=
  ⟨rfl, rfl, rfl, rfl, rfl, rfl, rfl, rfl, rfl, rfl, rfl, rfl, rfl, rfl⟩

@[simp] theorem memWrite_inBuf_fields (i : Nat) (p : Packet) (s : State) :
    (memWrite .inBuf i p s).ackExpected = s.ackExpected ∧ (memWrite .inBuf i p s).nextFrameToSend = s.nextFrameToSend ∧
    (memWrite .inBuf i p s).nbuffered = s.nbuffered ∧ (memWrite .inBuf i p s).outBuf = s.outBuf ∧
    (memWrite .inBuf i p s).frameExpected = s.frameExpected ∧ (memWrite .inBuf i p s).tooFar = s.tooFar ∧
    (memWrite .inBuf i p s).arrived = s.arrived ∧ (memWrite .inBuf i p s).inBuf = s.inBuf.set i p ∧
    (memWrite .inBuf i p s).noNak = s.noNak ∧ (memWrite .inBuf i p s).ledger = s.ledger ∧
    (memWrite .inBuf i p s).faultReg = s.faultReg ∧ (memWrite .inBuf i p s).out = s.out ∧
    (memWrite .inBuf i p s).inbox = s.inbox ∧ (memWrite .inBuf i p s).env = s.env :=
  ⟨rfl, rfl, rfl, rfl, rfl, rfl, rfl, rfl, rfl, rfl, rfl, rfl, rfl, rfl⟩

@[simp] theorem beginEvent_fields (s : State) :
    (beginEvent s).ackExpected = s.ackExpected ∧ (beginEvent s).nextFrameToSend = s.nextFrameToSend ∧
    (beginEvent s).nbuffered = s.nbuffered ∧ (beginEvent s).outBuf = s.outBuf ∧
    (beginEvent s).frameExpected = s.frameExpected ∧ (beginEvent s).tooFar = s.tooFar ∧
    (beginEvent s).arrived = s.arrived ∧ (beginEvent s).inBuf = s.inBuf ∧ (beginEvent s).noNak = s.noNak ∧
    (beginEvent s).ledger = s.ledger ∧ (beginEvent s).faultReg = s.faultReg ∧ (beginEvent s).out = [] ∧
    (beginEvent s).inbox = s.inbox ∧ (beginEvent s).env = s.env :=
  ⟨rfl, rfl, rfl, rfl, rfl, rfl, rfl, rfl, rfl, rfl, rfl, rfl, rfl, rfl⟩

@[simp] theorem setAckExpected_fields (v : Nat) (s : State) :
    (setAckExpected v s).ackExpected = v ∧ (setAckExpected v s).nextFrameToSend = s.nextFrameToSend ∧
    (setAckExpected v s).nbuffered = s.nbuffered ∧ (setAckExpected v s).outBuf = s.outBuf ∧
    (setAckExpected v s).frameExpected = s.frameExpected ∧ (setAckExpected v s).tooFar = s.tooFar ∧
    (setAckExpected v s).arrived = s.arrived ∧ (setAckExpected v s).inBuf = s.inBuf ∧
    (setAckExpected v s).noNak = s.noNak ∧ (setAckExpected v s).ledger = s.ledger ∧
    (setAckExpected v s).faultReg = s.faultReg ∧ (setAckExpected v s).out = s.out ∧
    (setAckExpected v s).inbox = s.inbox ∧ (setAckExpected v s).env = s.env :=
  ⟨rfl, rfl, rfl, rfl, rfl, rfl, rfl, rfl, rfl, rfl, rfl, rfl, rfl, rfl⟩

@[simp] theorem setNextFrameToSend_fields (v : Nat) (s : State) :
    (setNextFrameToSend v s).ackExpected = s.ackExpected ∧ (setNextFrameToSend v s).nextFrameToSend = v ∧
    (setNextFrameToSend v s).nbuffered = s.nbuffered ∧ (setNextFrameToSend v s).outBuf = s.outBuf ∧
    (setNextFrameToSend v s).frameExpected = s.frameExpected ∧ (setNextFrameToSend v s).tooFar = s.tooFar ∧
    (setNextFrameToSend v s).arrived = s.arrived ∧ (setNextFrameToSend v s).inBuf = s.inBuf ∧
    (setNextFrameToSend v s).noNak = s.noNak ∧ (setNextFrameToSend v s).ledger = s.ledger ∧
    (setNextFrameToSend v s).faultReg = s.faultReg ∧ (setNextFrameToSend v s).out = s.out ∧
    (setNextFrameToSend v s).inbox = s.inbox ∧ (setNextFrameToSend v s).env = s.env :=
  ⟨rfl, rfl, rfl, rfl, rfl, rfl, rfl, rfl, rfl, rfl, rfl, rfl, rfl, rfl⟩

@[simp] theorem setNbuffered_fields (v : Nat) (s : State) :
    (setNbuffered v s).ackExpected = s.ackExpected ∧ (setNbuffered v s).nextFrameToSend = s.nextFrameToSend ∧
    (setNbuffered v s).nbuffered = v ∧ (setNbuffered v s).outBuf = s.outBuf ∧
    (setNbuffered v s).frameExpected = s.frameExpected ∧ (setNbuffered v s).tooFar = s.tooFar ∧
    (setNbuffered v s).arrived = s.arrived ∧ (setNbuffered v s).inBuf = s.inBuf ∧ (setNbuffered v s).noNak = s.noNak ∧
    (setNbuffered v s).ledger = s.ledger ∧ (setNbuffered v s).faultReg = s.faultReg ∧ (setNbuffered v s).out = s.out ∧
    (setNbuffered v s).inbox = s.inbox ∧ (setNbuffered v s).env = s.env :=
  ⟨rfl, rfl, rfl, rfl, rfl, rfl, rfl, rfl, rfl, rfl, rfl, rfl, rfl, rfl⟩

@[simp] theorem setFrameExpected_fields (v : Nat) (s : State) :
    (setFrameExpected v s).ackExpected = s.ackExpected ∧ (setFrameExpected v s).nextFrameToSend = s.nextFrameToSend ∧
    (setFrameExpected v s).nbuffered = s.nbuffered ∧ (setFrameExpected v s).outBuf = s.outBuf ∧
    (setFrameExpected v s).frameExpected = v ∧ (setFrameExpected v s).tooFar = s.tooFar ∧
    (setFrameExpected v s).arrived = s.arrived ∧ (setFrameExpected v s).inBuf = s.inBuf ∧
    (setFrameExpected v s).noNak = s.noNak ∧ (setFrameExpected v s).ledger = s.ledger ∧
    (setFrameExpected v s).faultReg = s.faultReg ∧ (setFrameExpected v s).out = s.out ∧
    (setFrameExpected v s).inbox = s.inbox ∧ (setFrameExpected v s).env = s.env :=
  ⟨rfl, rfl, rfl, rfl, rfl, rfl, rfl, rfl, rfl, rfl, rfl, rfl, rfl, rfl⟩

@[simp] theorem setTooFar_fields (v : Nat) (s : State) :
    (setTooFar v s).ackExpected = s.ackExpected ∧ (setTooFar v s).nextFrameToSend = s.nextFrameToSend ∧
    (setTooFar v s).nbuffered = s.nbuffered ∧ (setTooFar v s).outBuf = s.outBuf ∧
    (setTooFar v s).frameExpected = s.frameExpected ∧ (setTooFar v s).tooFar = v ∧
    (setTooFar v s).arrived = s.arrived ∧ (setTooFar v s).inBuf = s.inBuf ∧ (setTooFar v s).noNak = s.noNak ∧
    (setTooFar v s).ledger = s.ledger ∧ (setTooFar v s).faultReg = s.faultReg ∧ (setTooFar v s).out = s.out ∧
    (setTooFar v s).inbox = s.inbox ∧ (setTooFar v s).env = s.env :=
  ⟨rfl, rfl, rfl, rfl, rfl, rfl, rfl, rfl, rfl, rfl, rfl, rfl, rfl, rfl⟩

@[simp] theorem setArrived_fields (i : Nat) (v : Bool) (s : State) :
    (setArrived i v s).ackExpected = s.ackExpected ∧ (setArrived i v s).nextFrameToSend = s.nextFrameToSend ∧
    (setArrived i v s).nbuffered = s.nbuffered ∧ (setArrived i v s).outBuf = s.outBuf ∧
    (setArrived i v s).frameExpected = s.frameExpected ∧ (setArrived i v s).tooFar = s.tooFar ∧
    (setArrived i v s).arrived = s.arrived.set i v ∧ (setArrived i v s).inBuf = s.inBuf ∧
    (setArrived i v s).noNak = s.noNak ∧ (setArrived i v s).ledger = s.ledger ∧
    (setArrived i v s).faultReg = s.faultReg ∧ (setArrived i v s).out = s.out ∧
    (setArrived i v s).inbox = s.inbox ∧ (setArrived i v s).env = s.env :=
  ⟨rfl, rfl, rfl, rfl, rfl, rfl, rfl, rfl, rfl, rfl, rfl, rfl, rfl, rfl⟩

@[simp] theorem setNoNak_fields (v : Bool) (s : State) :
    (setNoNak v s).ackExpected = s.ackExpected ∧ (setNoNak v s).nextFrameToSend = s.nextFrameToSend ∧
    (setNoNak v s).nbuffered = s.nbuffered ∧ (setNoNak v s).outBuf = s.outBuf ∧
    (setNoNak v s).frameExpected = s.frameExpected ∧ (setNoNak v s).tooFar = s.tooFar ∧
    (setNoNak v s).arrived = s.arrived ∧ (setNoNak v s).inBuf = s.inBuf ∧ (setNoNak v s).noNak = v ∧
    (setNoNak v s).ledger = s.ledger ∧ (setNoNak v s).faultReg = s.faultReg ∧ (setNoNak v s).out = s.out ∧
    (setNoNak v s).inbox = s.inbox ∧ (setNoNak v s).env = s.env :=
  ⟨rfl, rfl, rfl, rfl, rfl, rfl, rfl, rfl, rfl, rfl, rfl, rfl, rfl, rfl⟩

@[simp] theorem record_fields (x : Nat) (s : State) :
    (record x s).ackExpected = s.ackExpected ∧ (record x s).nextFrameToSend = s.nextFrameToSend ∧
    (record x s).nbuffered = s.nbuffered ∧ (record x s).outBuf = s.outBuf ∧
    (record x s).frameExpected = s.frameExpected ∧ (record x s).tooFar = s.tooFar ∧
    (record x s).arrived = s.arrived ∧ (record x s).inBuf = s.inBuf ∧ (record x s).noNak = s.noNak ∧
    (record x s).ledger = s.ledger ++ [x] ∧ (record x s).faultReg = s.faultReg ∧ (record x s).out = s.out ∧
    (record x s).inbox = s.inbox ∧ (record x s).env = s.env :=
  ⟨rfl, rfl, rfl, rfl, rfl, rfl, rfl, rfl, rfl, rfl, rfl, rfl, rfl, rfl⟩

@[simp] theorem forget_fields (x : Nat) (s : State) :
    (forget x s).ackExpected = s.ackExpected ∧ (forget x s).nextFrameToSend = s.nextFrameToSend ∧
    (forget x s).nbuffered = s.nbuffered ∧ (forget x s).outBuf = s.outBuf ∧
    (forget x s).frameExpected = s.frameExpected ∧ (forget x s).tooFar = s.tooFar ∧
    (forget x s).arrived = s.arrived ∧ (forget x s).inBuf = s.inBuf ∧ (forget x s).noNak = s.noNak ∧
    (forget x s).ledger = s.ledger.erase x ∧ (forget x s).faultReg = s.faultReg ∧ (forget x s).out = s.out ∧
    (forget x s).inbox = s.inbox ∧ (forget x s).env = s.env :=
  ⟨rfl, rfl, rfl, rfl, rfl, rfl, rfl, rfl, rfl, rfl, rfl, rfl, rfl, rfl⟩

@[simp] theorem raiseFault_fields (k : FaultCause) (s : State) :
    (raiseFault k s).ackExpected = s.ackExpected ∧ (raiseFault k s).nextFrameToSend = s.nextFrameToSend ∧
    (raiseFault k s).nbuffered = s.nbuffered ∧ (raiseFault k s).outBuf = s.outBuf ∧
    (raiseFault k s).frameExpected = s.frameExpected ∧ (raiseFault k s).tooFar = s.tooFar ∧
    (raiseFault k s).arrived = s.arrived ∧ (raiseFault k s).inBuf = s.inBuf ∧ (raiseFault k s).noNak = s.noNak ∧
    (raiseFault k s).ledger = s.ledger ∧ (raiseFault k s).faultReg = ⟨true, k⟩ ∧ (raiseFault k s).out = s.out ∧
    (raiseFault k s).inbox = s.inbox ∧ (raiseFault k s).env = s.env :=
  ⟨rfl, rfl, rfl, rfl, rfl, rfl, rfl, rfl, rfl, rfl, rfl, rfl, rfl, rfl⟩

@[simp] theorem settle_fields (c : Config) (phl : Bool) (s : State) :
    (settle c phl s).ackExpected = s.ackExpected ∧ (settle c phl s).nextFrameToSend = s.nextFrameToSend ∧
    (settle c phl s).nbuffered = s.nbuffered ∧ (settle c phl s).outBuf = s.outBuf ∧
    (settle c phl s).frameExpected = s.frameExpected ∧ (settle c phl s).tooFar = s.tooFar ∧
    (settle c phl s).arrived = s.arrived ∧ (settle c phl s).inBuf = s.inBuf ∧ (settle c phl s).noNak = s.noNak ∧
    (settle c phl s).ledger = s.ledger ∧ (settle c phl s).faultReg = s.faultReg ∧ (settle c phl s).out = s.out ∧
    (settle c phl s).inbox = s.inbox ∧ (settle c phl s).env = ((s.env.sampled phl).perform s.out).elapse c :=
  ⟨rfl, rfl, rfl, rfl, rfl, rfl, rfl, rfl, rfl, rfl, rfl, rfl, rfl, rfl⟩

/-! ### The buffers and the bitmap: read after write -/

theorem memRead_memWrite_outBuf {i : Nat} {s : State} (p : Packet) (h : i < s.outBuf.length) :
    memRead .outBuf i (memWrite .outBuf i p s) = p := by
  simp [memRead, h]

theorem memRead_memWrite_outBuf_ne {i j : Nat} (s : State) (p : Packet) (h : i ≠ j) :
    memRead .outBuf j (memWrite .outBuf i p s) = memRead .outBuf j s := by
  simp [memRead, List.getD_eq_getElem?_getD, List.getElem?_set_ne h]

theorem memRead_memWrite_inBuf {i : Nat} {s : State} (p : Packet) (h : i < s.inBuf.length) :
    memRead .inBuf i (memWrite .inBuf i p s) = p := by
  simp [memRead, h]

theorem memRead_memWrite_inBuf_ne {i j : Nat} (s : State) (p : Packet) (h : i ≠ j) :
    memRead .inBuf j (memWrite .inBuf i p s) = memRead .inBuf j s := by
  simp [memRead, List.getD_eq_getElem?_getD, List.getElem?_set_ne h]

theorem arrivedBit_setArrived {i : Nat} {s : State} (v : Bool) (h : i < s.arrived.length) :
    arrivedBit i (setArrived i v s) = v := by
  simp [arrivedBit, h]

theorem arrivedBit_setArrived_ne {i j : Nat} (s : State) (v : Bool) (h : i ≠ j) :
    arrivedBit j (setArrived i v s) = arrivedBit j s := by
  simp [arrivedBit, List.getD_eq_getElem?_getD, List.getElem?_set_ne h]

end Sys2Proof.Machine
end

