-- ==== Sys2Proof/Laws/Ops.lean ====
section
/-! SUPPORT. One lemma per shared operation: all that it can do. Provers cite these instead of unfolding the operation. -/

namespace Sys2Proof.Machine

open Sys2Proof

variable (c : Config)

/-! ### Sender -/

/-- `SendData(s)` changes the ledger and the output list, and nothing else (R140). -/
theorem sendData_eq (x : Nat) (s : State) :
    sendData c x s =
      { s with
        ledger := s.ledger ++ [x]
        out := s.out ++ [.tx (dataFrameBytes c x s), .startTimer (slot c x), .stopAckTimer] } := by
  simp [sendData, emit, record]

/-- `Retransmit(s)` changes the ledger and the output list, and nothing else (R144). -/
theorem retransmit_eq (x : Nat) (s : State) :
    retransmit c x s =
      { s with
        ledger := s.ledger.erase x ++ [x]
        out := s.out ++ [.stopTimer (slot c x), .tx (dataFrameBytes c x s), .startTimer (slot c x), .stopAckTimer] } := by
  simp [retransmit, sendData_eq, emit, forget, dataFrameBytes, ackValue, memRead]

/-- The effects of an admission (R141); the frame carries the packet just written. -/
theorem admitEffects_eq (p : Packet) (s : State) (h : slot c s.nextFrameToSend < s.outBuf.length) :
    admitEffects c p s =
      { s with
        outBuf := s.outBuf.set (slot c s.nextFrameToSend) p
        ledger := s.ledger ++ [s.nextFrameToSend]
        nextFrameToSend := inc c s.nextFrameToSend
        nbuffered := s.nbuffered + 1
        out := s.out ++ [.tx (currentDataFrame c s.nextFrameToSend p s), .startTimer (slot c s.nextFrameToSend),
          .stopAckTimer] } := by
  simp [admitEffects, sendData_eq, dataFrameBytes, currentDataFrame, ackValue, setNextFrameToSend, setNbuffered,
    memRead_memWrite_outBuf p h]

/-- `Admit(p)`: one of two faults, or the effects (R141). -/
theorem admitPacket_cases (p : Packet) (s : State) :
    (s.nbuffered = c.W ∧ admitPacket c p s = raiseFault .admissionOverrun s) ∨
    (s.nbuffered ≠ c.W ∧ s.nextFrameToSend ∈ s.ledger ∧ admitPacket c p s = raiseFault .ledgerDoubleEntry s) ∨
    (s.nbuffered ≠ c.W ∧ s.nextFrameToSend ∉ s.ledger ∧ admitPacket c p s = admitEffects c p s) := by
  unfold admitPacket
  by_cases h1 : s.nbuffered = c.W
  · simp [h1]
  · by_cases h2 : s.nextFrameToSend ∈ s.ledger <;> simp [h1, h2]

/-- `NakRetransmit(a)`: the frame asked for if it is in flight, nothing otherwise (R143). -/
theorem nakRetransmit_cases (a : Nat) (s : State) :
    (inWindow s.ackExpected (inc c a) s.nextFrameToSend = true ∧ nakRetransmit c a s = retransmit c (inc c a) s) ∨
    (inWindow s.ackExpected (inc c a) s.nextFrameToSend = false ∧ nakRetransmit c a s = s) := by
  unfold nakRetransmit nakTarget
  by_cases h : inWindow s.ackExpected (inc c a) s.nextFrameToSend = true
  · simp [h]
  · simp only [Bool.not_eq_true] at h; simp [h]

/-- `TimeoutRetransmit()`: the fault on an empty ledger, else the head moves to the tail (R145). -/
theorem timeoutRetransmit_cases (s : State) :
    (s.ledger = [] ∧ timeoutRetransmit c s = raiseFault .timeoutNoPending s) ∨
    (∃ x rest, s.ledger = x :: rest ∧ timeoutRetransmit c s = retransmit c x s) := by
  unfold timeoutRetransmit oldest
  cases h : s.ledger with
  | nil => simp
  | cons x rest => simp

/-! ### Receiver -/

/-- `SendNak()` (R165). -/
theorem sendNak_eq (s : State) :
    sendNak c s =
      { s with noNak := false, out := s.out ++ [.tx (encodeFrame c (.nak (prev c s.frameExpected)))] } := rfl

/-- Part 1 of `DataArrive` (R160). -/
theorem nakOrDelay_cases (x : Nat) (s : State) :
    (x ≠ s.frameExpected ∧ s.noNak = true ∧ nakOrDelay c x s = sendNak c s) ∨
    ((x = s.frameExpected ∨ s.noNak = false) ∧ nakOrDelay c x s = emit .startAckTimer s) := by
  unfold nakOrDelay
  by_cases h : x ≠ s.frameExpected ∧ s.noNak = true
  · exact .inl ⟨h.1, h.2, if_pos h⟩
  · refine .inr ⟨?_, if_neg h⟩
    by_cases h1 : x = s.frameExpected
    · exact .inl h1
    · exact .inr (by simpa [h1] using h)

/-- Part 2 of `DataArrive` (R161). -/
theorem acceptFrame_cases (x : Nat) (p : Packet) (s : State) :
    (inWindow s.frameExpected x s.tooFar = true ∧ arrivedBit (slot c x) s = false ∧
      acceptFrame c x p s = drain c (bufferFrame c x p s)) ∨
    ((inWindow s.frameExpected x s.tooFar = false ∨ arrivedBit (slot c x) s = true) ∧ acceptFrame c x p s = s) := by
  unfold acceptFrame
  by_cases h : inWindow s.frameExpected x s.tooFar = true ∧ arrivedBit (slot c x) s = false
  · exact .inl ⟨h.1, h.2, if_pos h⟩
  · refine .inr ⟨?_, if_neg h⟩
    cases h1 : inWindow s.frameExpected x s.tooFar
    · exact .inl rfl
    · exact .inr (by simpa [h1] using h)

/-- Buffering a frame (R161). -/
theorem bufferFrame_eq (x : Nat) (p : Packet) (s : State) :
    bufferFrame c x p s =
      { s with arrived := s.arrived.set (slot c x) true, inBuf := s.inBuf.set (slot c x) p } := rfl

/-! ### Event loop -/

/-- The gate adds one command, the last (R196). -/
theorem gate_eq (phl : Bool) (s : State) :
    gate c phl s = { s with out := s.out ++ [gateCommand c phl s.faultReg.halted s.nbuffered] } := by
  unfold gate netEnable gateCommand emit
  cases s.faultReg.halted <;> cases phl <;> simp

/-- A running station's event: the handler, the gate, the collaborators (R190). -/
theorem runEvent_running (phl : Bool) (deliver : Env → Env) (body : State → State) (s : State) (h : s.running) :
    runEvent c phl deliver body s =
      settle c phl (gate c phl (body (beginEvent { s with env := deliver s.env }))) := by
  have h' : s.faultReg.halted = false := h
  simp [runEvent, coreEvent, whenRunning, h']

/-- A halted station's event: SUSPEND_ADMISSION and nothing else (R197). -/
theorem runEvent_halted (phl : Bool) (deliver : Env → Env) (body : State → State) (s : State)
    (h : s.faultReg.halted = true) :
    runEvent c phl deliver body s =
      { s with
        out := [.suspendAdmission]
        env := (((deliver s.env).sampled phl).perform [.suspendAdmission]).elapse c } := by
  simp [runEvent, coreEvent, whenRunning, h, gate_eq, gateCommand, settle, beginEvent]

end Sys2Proof.Machine
end

