-- ==== Sys2Proof/Laws/Loops.lean ====
section
/-! SUPPORT. The two loops of the core, `AckRelease` (R142) and `Drain` (R162), in closed form. -/

namespace Sys2Proof.Machine

open Sys2Proof

variable {c : Config}

theorem seqPlus_zero {x : Nat} (hx : x < c.M) : seqPlus c x 0 = x := by
  simp [seqPlus, Nat.mod_eq_of_lt hx]

theorem seqPlus_inc (x i : Nat) : seqPlus c (inc c x) i = seqPlus c x (i + 1) := by
  simp only [seqPlus, inc, Nat.mod_add_mod]; congr 1; omega

theorem inc_seqPlus (x i : Nat) : inc c (seqPlus c x i) = seqPlus c x (i + 1) := by
  simp only [seqPlus, inc, Nat.mod_add_mod]; congr 1

/-! ### AckRelease -/

/-- The state after `k` rounds of `AckRelease`. -/
def releaseMany (c : Config) (k : Nat) (s : State) : State :=
  { s with
    ackExpected := seqPlus c s.ackExpected k
    nbuffered := s.nbuffered - k
    ledger := s.ledger.filter fun x => !decide (dist c s.ackExpected x < k)
    out := s.out ++ (List.range k).map fun i => .stopTimer (slot c (seqPlus c s.ackExpected i)) }

theorem releaseOne_eq (s : State) :
    releaseOne c s =
      { s with
        ackExpected := inc c s.ackExpected
        nbuffered := s.nbuffered - 1
        ledger := s.ledger.erase s.ackExpected
        out := s.out ++ [.stopTimer (slot c s.ackExpected)] } := rfl

theorem releaseMany_zero {s : State} (hs : s.ackExpected < c.M) : releaseMany c 0 s = s := by
  simp [releaseMany, seqPlus_zero hs]

theorem dist_inc {x y : Nat} (hx : x < c.M) (hy : y < c.M) (hne : y ≠ x) :
    dist c (inc c x) y + 1 = dist c x y := by
  have hi : inc c x < c.M := by rw [inc_eq hx]; split_ifs <;> omega
  rw [dist_eq hi hy, dist_eq hx hy, inc_eq hx]
  split_ifs <;> omega

theorem releaseMany_releaseOne {s : State} {k : Nat} (ha : s.ackExpected < c.M)
    (hl : ∀ x ∈ s.ledger, x < c.M) (hn : s.ledger.Nodup) :
    releaseMany c k (releaseOne c s) = releaseMany c (k + 1) s := by
  have hled : (s.ledger.erase s.ackExpected).filter (fun x => !decide (dist c (inc c s.ackExpected) x < k))
      = s.ledger.filter (fun x => !decide (dist c s.ackExpected x < k + 1)) := by
    rw [hn.erase_eq_filter, List.filter_filter]
    apply List.filter_congr
    intro x hx
    by_cases hxa : x = s.ackExpected
    · subst hxa
      rw [dist_eq ha ha]; simp
    · have h1 := dist_inc ha (hl x hx) hxa
      have h2 : (x != s.ackExpected) = true := by simpa using hxa
      rw [h2, Bool.and_true]
      congr 1
      exact decide_eq_decide.mpr (by omega)
  have hout : (Command.stopTimer (slot c s.ackExpected)) ::
        (List.range k).map (fun i => Command.stopTimer (slot c (seqPlus c (inc c s.ackExpected) i)))
      = (List.range (k + 1)).map fun i => Command.stopTimer (slot c (seqPlus c s.ackExpected i)) := by
    rw [List.range_succ_eq_map, List.map_cons, List.map_map, seqPlus_zero ha]
    simp only [seqPlus_inc, Function.comp_def, Nat.succ_eq_add_one]
  simp only [releaseMany, releaseOne_eq, List.append_assoc, List.singleton_append, seqPlus_inc, Nat.sub_sub,
    Nat.add_comm 1 k, State.mk.injEq, true_and, and_true]
  simp only [seqPlus_inc] at hout
  exact ⟨hled, congrArg (s.out ++ ·) hout⟩

/-- The window test of `AckRelease` seen from one round later: what is still to release is one less (R142). -/
theorem releaseCount_releaseOne (hc : c.Legal) {a : Nat} {s : State} (ha : a < c.M) (hs : s.ackExpected < c.M)
    (hf : s.nextFrameToSend < c.M) (hw : inWindow s.ackExpected a s.nextFrameToSend = true) :
    releaseCount c a (releaseOne c s) + 1 = releaseCount c a s := by
  have key : (if inWindow (inc c s.ackExpected) a s.nextFrameToSend = true
      then dist c (inc c s.ackExpected) a + 1 else 0) = dist c s.ackExpected a := by
    have hi := inc_lt hc s.ackExpected
    by_cases hne : a = s.ackExpected
    · subst hne
      have h3 : inWindow (inc c s.ackExpected) s.ackExpected s.nextFrameToSend = false := by
        rw [inWindow_eq_false_iff, inc_eq hs]
        rw [inWindow_iff] at hw
        split_ifs <;> omega
      rw [h3, dist_eq hs hs]; simp
    · rw [dist_inc hs ha hne]
      have h3 : inWindow (inc c s.ackExpected) a s.nextFrameToSend = true := by
        rw [inWindow_iff] at hw ⊢
        rw [inc_eq hs]
        split_ifs <;> omega
      rw [if_pos h3]
  have h1 : releaseCount c a s = dist c s.ackExpected a + 1 := if_pos hw
  rw [h1, ← key]
  rfl

theorem releaseCount_le (hc : c.Legal) (a : Nat) (s : State) : releaseCount c a s ≤ c.M := by
  unfold releaseCount
  split
  · exact dist_lt hc _ _
  · omega

theorem ackReleaseLoop_eq (hc : c.Legal) {a : Nat} (ha : a < c.M) :
    ∀ (fuel : Nat) (s : State), s.ackExpected < c.M → s.nextFrameToSend < c.M → (∀ x ∈ s.ledger, x < c.M) →
      s.ledger.Nodup → releaseCount c a s ≤ fuel →
      ackReleaseLoop c a fuel s = releaseMany c (releaseCount c a s) s := by
  intro fuel
  induction fuel with
  | zero =>
    intro s hs _ _ _ hk
    rw [Nat.le_zero.mp hk, releaseMany_zero hs]; rfl
  | succ k ih =>
    intro s hs hf hl hn hk
    unfold ackReleaseLoop
    by_cases hw : inWindow s.ackExpected a s.nextFrameToSend = true
    · have hcnt := releaseCount_releaseOne hc ha hs hf hw
      have hle := releaseCount_le hc a s
      rw [if_pos hw, ih (releaseOne c s) (inc_lt hc _) hf (fun x hx => hl x (List.mem_of_mem_erase hx))
        (hn.erase _) (by omega), releaseMany_releaseOne hs hl hn, hcnt]
    · rw [if_neg hw]
      have : releaseCount c a s = 0 := by simp [releaseCount, hw]
      rw [this, releaseMany_zero hs]

/-- `AckRelease(a)` in closed form (R142, "Equivalently"). -/
theorem ackRelease_eq (hc : c.Legal) {a : Nat} {s : State} (ha : a < c.M) (hs : s.ackExpected < c.M)
    (hf : s.nextFrameToSend < c.M) (hl : ∀ x ∈ s.ledger, x < c.M) (hn : s.ledger.Nodup) :
    ackRelease c a s = releaseMany c (releaseCount c a s) s :=
  ackReleaseLoop_eq hc ha c.M s hs hf hl hn (releaseCount_le hc a s)

/-- When `AckRelease(a)` ends, its loop test is false: the bound on its rounds cuts nothing off (R142). -/
theorem ackRelease_done (hc : c.Legal) {a : Nat} {s : State} (ha : a < c.M) (hs : s.ackExpected < c.M)
    (hf : s.nextFrameToSend < c.M) (hl : ∀ x ∈ s.ledger, x < c.M) (hn : s.ledger.Nodup) :
    inWindow (ackRelease c a s).ackExpected a (ackRelease c a s).nextFrameToSend = false := by
  rw [ackRelease_eq hc ha hs hf hl hn]
  simp only [releaseMany, releaseCount]
  by_cases hw : inWindow s.ackExpected a s.nextFrameToSend = true
  · rw [if_pos hw, ← inc_seqPlus]
    have h1 := dist_eq hs ha
    have h2 := seqPlus_eq hs (dist_lt hc s.ackExpected a)
    have h3 : seqPlus c s.ackExpected (dist c s.ackExpected a) = a := by
      rw [h2]; split_ifs at h1 ⊢ <;> omega
    rw [h3, inc_eq ha, inWindow_eq_false_iff]
    rw [inWindow_iff] at hw
    split_ifs <;> omega
  · simp only [hw, Bool.false_eq_true, if_false, seqPlus_zero hs]

/-! ### Drain -/

/-- The arrival bitmap with the `k` flags from `x` on cleared. -/
def clearRun (c : Config) (x k : Nat) (l : List Bool) : List Bool :=
  (List.range k).foldl (fun l j => l.set (slot c (seqPlus c x j)) false) l

/-- The state after `k` rounds of `Drain`. -/
def drainMany (c : Config) (k : Nat) (s : State) : State :=
  { s with
    frameExpected := seqPlus c s.frameExpected k
    tooFar := seqPlus c s.tooFar k
    noNak := s.noNak || decide (0 < k)
    arrived := clearRun c s.frameExpected k s.arrived
    out := s.out ++ (List.range k).flatMap fun j =>
      [.deliver (memRead .inBuf (slot c (seqPlus c s.frameExpected j)) s), .startAckTimer] }

theorem drainOne_eq (s : State) :
    drainOne c s =
      { s with
        frameExpected := inc c s.frameExpected
        tooFar := inc c s.tooFar
        noNak := true
        arrived := s.arrived.set (slot c s.frameExpected) false
        out := s.out ++ [.deliver (memRead .inBuf (slot c s.frameExpected) s), .startAckTimer] } := by
  simp [drainOne, emit, setNoNak, setArrived, setFrameExpected, setTooFar]

theorem drainMany_zero {s : State} (hf : s.frameExpected < c.M) (ht : s.tooFar < c.M) : drainMany c 0 s = s := by
  simp [drainMany, seqPlus_zero hf, seqPlus_zero ht, clearRun]

theorem drainMany_drainOne {s : State} (k : Nat) (hf : s.frameExpected < c.M) :
    drainMany c k (drainOne c s) = drainMany c (k + 1) s := by
  simp only [drainMany, drainOne_eq, seqPlus_inc, clearRun, List.range_succ_eq_map, List.foldl_cons, List.foldl_map,
    List.flatMap_cons, List.flatMap_map, seqPlus_zero hf, List.append_assoc]
  simp [memRead]

theorem clearRun_length (x k : Nat) (l : List Bool) : (clearRun c x k l).length = l.length := by
  unfold clearRun
  induction k generalizing l with
  | zero => rfl
  | succ k ih => rw [List.range_succ, List.foldl_append]; simp [ih]

/-- The flags that a drain of `k` rounds leaves set (R162). -/
theorem clearRun_getD (x k : Nat) (l : List Bool) (i : Nat) :
    (clearRun c x k l).getD i false = (l.getD i false && !decide (∃ j, j < k ∧ slot c (seqPlus c x j) = i)) := by
  induction k with
  | zero => simp [clearRun]
  | succ k ih =>
    have h1 : clearRun c x (k + 1) l = (clearRun c x k l).set (slot c (seqPlus c x k)) false := by
      simp [clearRun, List.range_succ, List.foldl_append]
    rw [h1]
    by_cases h : slot c (seqPlus c x k) = i
    · have h2 : ∃ j, j < k + 1 ∧ slot c (seqPlus c x j) = i := ⟨k, by omega, h⟩
      simp only [h2, decide_true, Bool.not_true, Bool.and_false]
      subst h
      rw [List.getD_eq_getElem?_getD, List.getElem?_set_self']
      cases (clearRun c x k l)[slot c (seqPlus c x k)]? <;> rfl
    · rw [List.getD_eq_getElem?_getD, List.getElem?_set_ne h, ← List.getD_eq_getElem?_getD, ih]
      congr 3
      apply propext
      constructor
      · rintro ⟨j, hj, e⟩; exact ⟨j, by omega, e⟩
      · rintro ⟨j, hj, e⟩
        refine ⟨j, ?_, e⟩
        rcases Nat.lt_succ_iff_lt_or_eq.mp hj with h3 | h3
        · exact h3
        · subst h3; exact absurd e h

theorem exists_drainRounds (fuel : Nat) (s : State) : ∃ k, DrainRounds c fuel k s := by
  induction fuel with
  | zero => exact ⟨0, Nat.le_refl _, fun j hj => absurd hj (Nat.not_lt_zero j), fun h => absurd h (Nat.lt_irrefl 0)⟩
  | succ f ih =>
    obtain ⟨k, h1, h2, h3⟩ := ih
    by_cases hk : k < f
    · exact ⟨k, by omega, h2, fun _ => h3 hk⟩
    · have hkf : k = f := by omega
      subst hkf
      cases hb : arrivedBit (slot c (seqPlus c s.frameExpected k)) s
      · exact ⟨k, by omega, h2, fun _ => hb⟩
      · refine ⟨k + 1, by omega, ?_, fun h => absurd h (Nat.lt_irrefl _)⟩
        intro j hj
        rcases Nat.lt_succ_iff_lt_or_eq.mp hj with h4 | h4
        · exact h2 j h4
        · subst h4; exact hb

/-- Numbers less than W apart never share a slot (R42, R104). -/
theorem slot_seqPlus_inj (hc : c.Legal) {x i j : Nat} (hx : x < c.M) (hi : i < c.W) (hj : j < c.W)
    (h : slot c (seqPlus c x i) = slot c (seqPlus c x j)) : i = j := by
  have hm := hc.M_eq
  have hw := hc.W_pos
  rw [slot_eq hc (seqPlus_lt hc x i), slot_eq hc (seqPlus_lt hc x j), seqPlus_eq hx (by omega),
    seqPlus_eq hx (by omega)] at h
  split_ifs at h <;> omega

theorem drainLoop_eq (hc : c.Legal) :
    ∀ (fuel : Nat) (k : Nat) (s : State), fuel ≤ c.W → s.frameExpected < c.M → s.tooFar < c.M →
      DrainRounds c fuel k s → drainLoop c fuel s = drainMany c k s := by
  intro fuel
  induction fuel with
  | zero =>
    rintro k s _ hf ht ⟨h1, _, _⟩
    rw [Nat.le_zero.mp h1, drainMany_zero hf ht]; rfl
  | succ f ih =>
    rintro k s hfw hf ht ⟨h1, h2, h3⟩
    unfold drainLoop
    cases k with
    | zero =>
      have h4 := h3 (by omega)
      rw [seqPlus_zero hf] at h4
      rw [h4, if_neg (by decide), drainMany_zero hf ht]
    | succ k =>
      have h4 := h2 0 (by omega)
      rw [seqPlus_zero hf] at h4
      rw [if_pos h4, ← drainMany_drainOne k hf]
      have hstep : ∀ j, j + 1 < c.W →
          arrivedBit (slot c (seqPlus c (drainOne c s).frameExpected j)) (drainOne c s) =
            arrivedBit (slot c (seqPlus c s.frameExpected (j + 1))) s := by
        intro j hj
        rw [drainOne_eq]
        simp only [seqPlus_inc, arrivedBit]
        rw [List.getD_eq_getElem?_getD, List.getElem?_set_ne, ← List.getD_eq_getElem?_getD]
        intro e
        have e' := slot_seqPlus_inj (i := 0) (j := j + 1) hc hf hc.W_pos hj (by rw [seqPlus_zero hf]; exact e)
        omega
      apply ih k (drainOne c s) (by omega) (inc_lt hc _) (inc_lt hc _)
      refine ⟨by omega, ?_, ?_⟩
      · intro j hj
        rw [hstep j (by omega)]; exact h2 (j + 1) (by omega)
      · intro hk
        rw [hstep k (by omega)]; exact h3 (by omega)

/-- `Drain()` in closed form (R162). -/
theorem drain_eq (hc : c.Legal) {k : Nat} {s : State} (hf : s.frameExpected < c.M) (ht : s.tooFar < c.M)
    (hk : DrainRounds c c.W k s) : drain c s = drainMany c k s :=
  drainLoop_eq hc c.W k s (Nat.le_refl _) hf ht hk

end Sys2Proof.Machine
end

