-- ==== Sys2Proof/Laws/Frames.lean ====
section
/-! SUPPORT. What the loops and the receiver's part of a frame can change, for every value of the registers: the fields that
are not named keep their value, and the commands added to the output list are of the kinds said. -/

namespace Sys2Proof.Machine

open Sys2Proof

/-- `AckRelease` writes three registers and adds STOP_TIMER commands only (R142). -/
theorem ackReleaseLoop_frame (c : Config) (a : Nat) (fuel : Nat) (s : State) :
    ∃ ae nb lg st, ackReleaseLoop c a fuel s =
        { s with ackExpected := ae, nbuffered := nb, ledger := lg, out := s.out ++ st } ∧
      ∀ k ∈ st, k.isStopTimer = true := by
  induction fuel generalizing s with
  | zero => exact ⟨s.ackExpected, s.nbuffered, s.ledger, [], by simp [ackReleaseLoop], by simp⟩
  | succ f ih =>
    unfold ackReleaseLoop
    by_cases h : inWindow s.ackExpected a s.nextFrameToSend = true
    · rw [if_pos h]
      obtain ⟨ae, nb, lg, st, e, hk⟩ := ih (releaseOne c s)
      refine ⟨ae, nb, lg, .stopTimer (slot c s.ackExpected) :: st, ?_, ?_⟩
      · rw [e, releaseOne_eq]; simp
      · intro k hk'; rcases List.mem_cons.mp hk' with rfl | h'
        · rfl
        · exact hk k h'
    · rw [if_neg h]; exact ⟨s.ackExpected, s.nbuffered, s.ledger, [], by simp, by simp⟩

/-- A command that a drain emits (R162). -/
def Command.isDrain (k : Command) : Bool := k.isDeliver || decide (k = .startAckTimer)

/-- `Drain` writes four registers and adds DELIVER and START_ACK_TIMER commands only (R162). -/
theorem drainLoop_frame (c : Config) (fuel : Nat) (s : State) :
    ∃ fe tf ar nn st, drainLoop c fuel s =
        { s with frameExpected := fe, tooFar := tf, arrived := ar, noNak := nn, out := s.out ++ st } ∧
      ∀ k ∈ st, k.isDrain = true := by
  induction fuel generalizing s with
  | zero => exact ⟨s.frameExpected, s.tooFar, s.arrived, s.noNak, [], by simp [drainLoop], by simp⟩
  | succ f ih =>
    unfold drainLoop
    by_cases h : arrivedBit (slot c s.frameExpected) s = true
    · rw [if_pos h]
      obtain ⟨fe, tf, ar, nn, st, e, hk⟩ := ih (drainOne c s)
      refine ⟨fe, tf, ar, nn, .deliver (memRead .inBuf (slot c s.frameExpected) s) :: .startAckTimer :: st, ?_, ?_⟩
      · rw [e, drainOne_eq]; simp
      · intro k hk'; simp only [List.mem_cons] at hk'
        rcases hk' with rfl | rfl | h'
        · rfl
        · rfl
        · exact hk k h'
    · rw [if_neg h]; exact ⟨s.frameExpected, s.tooFar, s.arrived, s.noNak, [], by simp, by simp⟩

/-- `DataArrive` writes the receiver's registers only: one TX or START_ACK_TIMER, then a drain (R160 to R163). -/
theorem dataArrive_frame (c : Config) (x : Nat) (p : Packet) (s : State) :
    ∃ fe tf ar nn ib k0 st, dataArrive c x p s =
        { s with frameExpected := fe, tooFar := tf, arrived := ar, noNak := nn, inBuf := ib, out := s.out ++ k0 :: st } ∧
      k0.isGate = false ∧ ∀ k ∈ st, k.isDrain = true := by
  unfold dataArrive
  have h0 : ∃ nn k0, nakOrDelay c x s = { s with noNak := nn, out := s.out ++ [k0] } ∧ k0.isGate = false := by
    rcases nakOrDelay_cases c x s with ⟨_, _, h⟩ | ⟨_, h⟩
    · rw [h, sendNak_eq]; exact ⟨_, _, rfl, rfl⟩
    · rw [h]; exact ⟨_, _, rfl, rfl⟩
  obtain ⟨nn, k0, e0, hg⟩ := h0
  rw [e0]
  rcases acceptFrame_cases c x p { s with noNak := nn, out := s.out ++ [k0] } with ⟨_, _, h⟩ | ⟨_, h⟩
  · rw [h, drain]
    obtain ⟨fe, tf, ar, nn, st, e, hk⟩ := drainLoop_frame c c.W (bufferFrame c x p { s with noNak := nn, out := s.out ++ [k0] })
    rw [e]
    exact ⟨fe, tf, ar, nn, _, k0, st, by simp [bufferFrame_eq]; rfl, hg, hk⟩
  · rw [h]; exact ⟨s.frameExpected, s.tooFar, s.arrived, nn, s.inBuf, k0, [], rfl, hg, by simp⟩

end Sys2Proof.Machine
end

