-- ==== Sys2Proof/Laws/PerInstr.lean ====
section
/-! SUPPORT. Statements about every instruction as syntax, one lemma per constructor. -/

namespace Sys2Proof.Laws.EncodedOp

open Sys2Proof
open Sys2Proof.Config (hw)

/-- The header of a well-formed event is one byte whose bits 2:0 are the event's opcode of R81 and whose bit 3 is its
readiness level (R80). -/
def Statement (i : Instr) : Prop :=
  i.wf hw = true →
    (encode hw i).header < 256 ∧ headerOp (encode hw i).header = i.op ∧ headerPhl (encode hw i).header = i.header.phl

/-- An opcode has three bits (R80). -/
theorem op_lt (i : Instr) : i.op < 8 := by cases i <;> simp [Instr.op]

/-- The statement's part that is the same for every opcode. -/
theorem of_header {i : Instr} (hw1 : i.header.wf hw = true) : Statement i := by
  intro _
  have hop := op_lt i
  obtain ⟨h1, h2⟩ := (Machine.header_wf_hw _).mp hw1
  simp only [encode, encodeHeader, headerOp, headerPhl, Config.hw_W]
  cases i.header.phl <;> simp <;> omega

theorem netReady (h : Header) (p : Packet) : Statement (.netReady h p) := fun w => by
  simp only [Instr.wf, Bool.and_eq_true] at w
  exact of_header w.1 (by simp only [Instr.wf, Bool.and_eq_true]; exact w)

theorem phyReady (h : Header) : Statement (.phyReady h) := fun w => of_header w w

theorem frameRx (h : Header) (b : Bytes) : Statement (.frameRx h b) := fun w => by
  have w' := w
  simp only [Instr.wf, Bool.and_eq_true] at w'
  exact of_header w'.1 w

theorem dataTimeout (h : Header) : Statement (.dataTimeout h) := fun w => of_header w w

theorem ackTimeout (h : Header) : Statement (.ackTimeout h) := fun w => of_header w w

theorem reservedEvent5 (h : Header) (o : Option Bytes) : Statement (.reservedEvent5 h o) := fun w => of_header w w

theorem reservedEvent6 (h : Header) (o : Option Bytes) : Statement (.reservedEvent6 h o) := fun w => of_header w w

theorem reservedEvent7 (h : Header) (o : Option Bytes) : Statement (.reservedEvent7 h o) := fun w => of_header w w

theorem frameRxData (h : Header) (ack seq : Nat) (payload : Packet) :
    Statement (.frameRxData h ack seq payload) := fun w => by
  have w' := w
  simp only [Instr.wf, Bool.and_eq_true] at w'
  exact of_header w'.1 w

theorem frameRxAck (h : Header) (ack : Nat) : Statement (.frameRxAck h ack) := fun w => by
  have w' := w
  simp only [Instr.wf, Bool.and_eq_true] at w'
  exact of_header w'.1 w

theorem frameRxNak (h : Header) (ack : Nat) : Statement (.frameRxNak h ack) := fun w => by
  have w' := w
  simp only [Instr.wf, Bool.and_eq_true] at w'
  exact of_header w'.1 w

end Sys2Proof.Laws.EncodedOp
end

