-- ==== Sys2Proof/Tests/Slice0.lean ====
section
/-! SUPPORT. Tests: the checks of WellFormed refuse ill-formed terms, words written out from the spec's encodings decode to the
events they stand for, single events of spec/95_test_vectors.md give the outputs that file gives (its parameters: n = 4,
PKT_LEN = 4, CRC-32, LE), and, for every obligation that has hypotheses, a concrete case that meets them. -/

namespace Sys2Proof.Tests

open Sys2Proof Sys2Proof.Machine
open Sys2Proof.Config (hw)

-- One theorem after another: elaborated side by side, a hundred small theorems hold a thread's stack each.
set_option Elab.async false

/-! ### WellFormed refuses -/

theorem test_wf_slot_too_wide : (Instr.phyReady ⟨true, 8, 0⟩).wf hw = false := by decide +kernel
theorem test_wf_reserved_too_wide : (Instr.ackTimeout ⟨true, 0, 2⟩).wf hw = false := by decide +kernel
theorem test_wf_dataTimeout_slot : (Instr.dataTimeout ⟨false, 9, 0⟩).wf hw = false := by decide +kernel
theorem test_wf_reserved5_header : (Instr.reservedEvent5 ⟨true, 8, 0⟩ none).wf hw = false := by decide +kernel
theorem test_wf_reserved6_header : (Instr.reservedEvent6 ⟨true, 8, 0⟩ none).wf hw = false := by decide +kernel
theorem test_wf_reserved7_header : (Instr.reservedEvent7 ⟨true, 8, 0⟩ none).wf hw = false := by decide +kernel
theorem test_wf_packet_length : (Instr.netReady ⟨true, 0, 0⟩ []).wf hw = false := by
  have h : ¬ 0 = hw.pktLen := fun h => Nat.succ_ne_zero _ h.symm
  simp [Instr.wf, h]
theorem test_wf_frameRx_is_a_frame :
    (Instr.frameRx ⟨true, 0, 0⟩ [0x02, 0x03, 0xC7, 0x21, 0xE6, 0xEA]).wf (suggestedConfig 4 4) = false := by
  decide +kernel
theorem test_wf_ack_field : (Instr.frameRxAck ⟨true, 0, 0⟩ 16).wf hw = false := by decide +kernel
theorem test_wf_nak_field : (Instr.frameRxNak ⟨true, 0, 0⟩ 16).wf hw = false := by decide +kernel
theorem test_wf_data_ack_field :
    (Instr.frameRxData ⟨true, 0, 0⟩ 16 0 [1, 2, 3, 4]).wf (suggestedConfig 4 4) = false := by decide +kernel
theorem test_wf_data_seq_field :
    (Instr.frameRxData ⟨true, 0, 0⟩ 0 16 [1, 2, 3, 4]).wf (suggestedConfig 4 4) = false := by decide +kernel
theorem test_wf_data_payload :
    (Instr.frameRxData ⟨true, 0, 0⟩ 0 0 [1, 2, 3]).wf (suggestedConfig 4 4) = false := by decide +kernel

/-! ### Decoding words written out from R80, R81 and the frame layouts R71 to R73 -/

/-- The parameters of spec/95_test_vectors.md. -/
abbrev cfg : Config := suggestedConfig 4 4

theorem test_decode_netReady :
    decode cfg ⟨0b00001000, some [0xA0, 0xB0, 0xC0, 0xD0]⟩ = .ok (.netReady ⟨true, 0, 0⟩ [0xA0, 0xB0, 0xC0, 0xD0]) := by
  decide +kernel
theorem test_decode_phyReady : decode cfg ⟨0b00000001, none⟩ = .ok (.phyReady ⟨false, 0, 0⟩) := by decide +kernel
theorem test_decode_dataTimeout : decode cfg ⟨0b00101011, none⟩ = .ok (.dataTimeout ⟨true, 2, 0⟩) := by decide +kernel
theorem test_decode_ackTimeout : decode cfg ⟨0b10001100, none⟩ = .ok (.ackTimeout ⟨true, 0, 1⟩) := by decide +kernel
/-- Frame D0. -/
theorem test_decode_data :
    decode cfg ⟨0x0A, some [0x01, 0x0F, 0x00, 0xA0, 0xB0, 0xC0, 0xD0, 0x90, 0x84, 0x51, 0x0F]⟩ =
      .ok (.frameRxData ⟨true, 0, 0⟩ 15 0 [0xA0, 0xB0, 0xC0, 0xD0]) := by decide +kernel
/-- Vector DE1. -/
theorem test_decode_ack :
    decode cfg ⟨0x0A, some [0x02, 0x03, 0xC7, 0x21, 0xE6, 0xEA]⟩ = .ok (.frameRxAck ⟨true, 0, 0⟩ 3) := by decide +kernel
/-- Vector DE2. -/
theorem test_decode_nak :
    decode cfg ⟨0x0A, some [0x03, 0x0F, 0xAD, 0x5C, 0x4B, 0xFA]⟩ = .ok (.frameRxNak ⟨true, 0, 0⟩ 15) := by decide +kernel
/-- Vectors DE6 and DE8. -/
theorem test_decode_error :
    decodeAndValidate cfg [0x02, 0x03, 0x00, 0x00, 0x00] = .decodeError .short ∧
    decodeAndValidate cfg [0x02, 0x03, 0x00, 0x00, 0x00, 0x00] = .decodeError .cksum := by decide +kernel
/-- Vectors DE10, DE12 and DE13. -/
theorem test_decode_malformed :
    decodeAndValidate cfg [0x04, 0x03, 0x41, 0x86, 0xBC, 0xBC] = .malformed .kind ∧
    decodeAndValidate cfg [0x02, 0x03, 0x00, 0xBF, 0x5E, 0xE8, 0xD7] = .malformed .length ∧
    decodeAndValidate cfg [0x02, 0x10, 0x19, 0x60, 0x58, 0x6E] = .malformed .field := by decide +kernel
theorem test_decode_reserved :
    decode cfg ⟨0b00000101, none⟩ = .ok (.reservedEvent5 ⟨false, 0, 0⟩ none) ∧
    decode cfg ⟨0b00000110, none⟩ = .ok (.reservedEvent6 ⟨false, 0, 0⟩ none) ∧
    decode cfg ⟨0b00001111, none⟩ = .ok (.reservedEvent7 ⟨true, 0, 0⟩ none) := by decide +kernel
theorem test_decode_rejects :
    decode cfg ⟨0x100, none⟩ = .error .headerTooWide ∧ decode cfg ⟨0x08, none⟩ = .error .missingOperand ∧
    decode cfg ⟨0x0A, none⟩ = .error .missingOperand ∧ decode cfg ⟨0x09, some []⟩ = .error .unexpectedOperand := by
  decide +kernel
/-- Vectors EN3 and EN17: the checksum bytes in both orders. -/
theorem test_encode_ack :
    encodeFrame cfg (.ack 1) = [0x02, 0x01, 0xEB, 0x40, 0xE8, 0x04] ∧
    encodeFrame { cfg with cksumOrder := .be } (.ack 3) = [0x02, 0x03, 0xEA, 0xE6, 0x21, 0xC7] := by decide +kernel
/-- A row of the opcode table: DATA_TIMEOUT's word with slot 5 and a high level. -/
theorem test_decodeTableWord : decodeTableWord 8 0b01011011 = some (.dataTimeout ⟨true, 5, 0⟩) := by decide +kernel

/-! ### Sequence arithmetic: vectors SA3, SA4, IW7, IW9, IW13, IW24 -/

theorem test_inc_prev_wrap : inc cfg 15 = 0 ∧ prev cfg 0 = 15 ∧ slot cfg 14 = 6 := by decide +kernel
theorem test_inWindow :
    inWindow 14 0 2 = true ∧ inWindow 14 2 2 = false ∧ inWindow 12 3 4 = true ∧ inWindow 8 0 0 = false := by decide

/-! ### One event each, from spec/95_test_vectors.md -/

/-- The packets pk(0), pk(1), pk(2). -/
def pk0 : Packet := [0xA0, 0xB0, 0xC0, 0xD0]
def pk1 : Packet := [0xA1, 0xB1, 0xC1, 0xD1]
def pk2 : Packet := [0xA2, 0xB2, 0xC2, 0xD2]

/-- A header with only the level high. -/
def hi : Header := ⟨true, 0, 0⟩
/-- A header with the level low. -/
def lo : Header := ⟨false, 0, 0⟩

/-- A fresh core. -/
def fresh : State := State.resetOf cfg

/-- The start state of SW1 to SW8: three frames in flight. -/
def sent3 : State :=
  { fresh with
    nextFrameToSend := 3, nbuffered := 3, ledger := [0, 1, 2]
    outBuf := [pk0, pk1, pk2, [], [], [], [], []] }

/-- P3 before its fourth step: frames 1 and 2 buffered, the expected frame 0 missing. -/
def gap0 : State :=
  { fresh with
    arrived := [false, true, true, false, false, false, false, false], noNak := false
    inBuf := [[], pk1, pk2, [], [], [], [], []] }

/-- SW11: admission with the level low. -/
theorem test_netReady :
    (netReady cfg lo pk0 fresh).out =
      [.tx [0x01, 0x0F, 0x00, 0xA0, 0xB0, 0xC0, 0xD0, 0x90, 0x84, 0x51, 0x0F], .startTimer 0, .stopAckTimer,
        .suspendAdmission] ∧
    (netReady cfg lo pk0 fresh).ledger = [0] ∧ (netReady cfg lo pk0 fresh).nextFrameToSend = 1 := by decide +kernel
/-- P6 part b: the ninth admission. -/
theorem test_netReady_overrun :
    (netReady cfg hi pk0 { fresh with nextFrameToSend := 8, nbuffered := 8, ledger := [0, 1, 2, 3, 4, 5, 6, 7] }).faultReg =
      ⟨true, .admissionOverrun⟩ := by decide +kernel
/-- P6 part c. -/
theorem test_phyReady :
    (phyReady cfg lo fresh).out = [.suspendAdmission] ∧ (phyReady cfg hi fresh).out = [.resumeAdmission] := by
  decide +kernel
/-- SW10. -/
theorem test_dataTimeout :
    (dataTimeout cfg hi sent3).out =
      [.stopTimer 0, .tx [0x01, 0x0F, 0x00, 0xA0, 0xB0, 0xC0, 0xD0, 0x90, 0x84, 0x51, 0x0F], .startTimer 0, .stopAckTimer,
        .resumeAdmission] ∧
    (dataTimeout cfg hi sent3).ledger = [1, 2, 0] := by decide +kernel
/-- P6 part a. -/
theorem test_dataTimeout_nothing_pending :
    (dataTimeout cfg hi fresh).faultReg.bits = 0b111 ∧ (dataTimeout cfg hi fresh).out = [.suspendAdmission] := by
  decide +kernel
/-- AA2: frame_expected = 4. -/
theorem test_ackTimeout :
    (ackTimeout cfg hi { fresh with frameExpected := 4, tooFar := 12 }).out =
      [.tx [0x02, 0x03, 0xC7, 0x21, 0xE6, 0xEA], .resumeAdmission] := by decide +kernel
/-- P4 steps 1 and 3: a corrupted frame draws a NAK, a second one does not. -/
theorem test_frameRx_decode_error :
    (frameRx cfg hi [0x01, 0x0F, 0x00, 0x5F, 0xB0, 0xC0, 0xD0, 0x90, 0x84, 0x51, 0x0F] fresh).out =
      [.tx [0x03, 0x0F, 0xAD, 0x5C, 0x4B, 0xFA], .resumeAdmission] ∧
    (frameRx cfg hi [0x01, 0x0F, 0x01, 0xA1, 0xB1, 0xD1, 0xD1, 0xA5, 0xA1, 0x53, 0xE5] gap0).out =
      [.resumeAdmission] := by decide +kernel
/-- Vector DE13 as an event: a malformed frame has no effect. -/
theorem test_frameRx_malformed :
    (frameRx cfg hi [0x02, 0x10, 0x19, 0x60, 0x58, 0x6E] fresh).out = [.resumeAdmission] ∧
    (frameRx cfg hi [0x02, 0x10, 0x19, 0x60, 0x58, 0x6E] fresh).noNak = true := by decide +kernel
/-- RX1: seq 8 is `too_far`. -/
theorem test_frameRxData_outside :
    (frameRxData cfg hi 15 8 pk0 fresh).out = [.tx [0x03, 0x0F, 0xAD, 0x5C, 0x4B, 0xFA], .resumeAdmission] ∧
    (frameRxData cfg hi 15 8 pk0 fresh).arrived = fresh.arrived := by decide +kernel
/-- P3 step 4, with two buffered packets: the gap is filled. -/
theorem test_frameRxData_drain :
    (frameRxData cfg hi 15 0 pk0 gap0).out =
      [.startAckTimer, .deliver pk0, .startAckTimer, .deliver pk1, .startAckTimer, .deliver pk2, .startAckTimer,
        .resumeAdmission] ∧
    (frameRxData cfg hi 15 0 pk0 gap0).frameExpected = 3 ∧ (frameRxData cfg hi 15 0 pk0 gap0).tooFar = 11 := by
  decide +kernel
/-- SW4. -/
theorem test_frameRxAck :
    (frameRxAck cfg hi 1 sent3).out = [.stopTimer 0, .stopTimer 1, .resumeAdmission] ∧
    (frameRxAck cfg hi 1 sent3).ackExpected = 2 ∧ (frameRxAck cfg hi 1 sent3).ledger = [2] := by decide +kernel
/-- SW2: an ack value that was never sent. -/
theorem test_frameRxAck_outside :
    (frameRxAck cfg hi 3 sent3).out = [.resumeAdmission] ∧ (frameRxAck cfg hi 3 sent3).nbuffered = 3 := by decide +kernel
/-- SW7. -/
theorem test_frameRxNak :
    (frameRxNak cfg hi 0 sent3).out =
      [.stopTimer 0, .stopTimer 1, .tx [0x01, 0x0F, 0x01, 0xA1, 0xB1, 0xC1, 0xD1, 0xA5, 0xA1, 0x53, 0xE5], .startTimer 1,
        .stopAckTimer, .resumeAdmission] ∧
    (frameRxNak cfg hi 0 sent3).ledger = [2, 1] := by decide +kernel
/-- SW8: NAK 2 acknowledges 0..2 and asks for a frame that is not in flight. -/
theorem test_frameRxNak_not_in_flight :
    (frameRxNak cfg hi 2 sent3).out = [.stopTimer 0, .stopTimer 1, .stopTimer 2, .resumeAdmission] := by decide +kernel
/-- R82. -/
theorem test_reserved :
    exec (.reservedEvent5 lo none) State.reset = .refused (.reservedEvent 5) ∧
    exec (.reservedEvent6 lo none) State.reset = .refused (.reservedEvent 6) ∧
    exec (.reservedEvent7 hi (some [])) State.reset = .refused (.reservedEvent 7) := ⟨rfl, rfl, rfl⟩
/-- The event `withFetchWord` places is the next one to run. -/
theorem test_withFetchWord :
    step (State.reset.withFetchWord 8 0x09) = exec (.phyReady hi) { State.reset with inbox := [] } := rfl

/-- R121, R55: a checksum in both byte orders (the checksum of `02 03` is 0xEAE621C7, R132). -/
theorem test_ckBytes :
    ckBytes .le 0xEAE621C7#32 = [0xC7, 0x21, 0xE6, 0xEA] ∧ ckBytes .be 0xEAE621C7#32 = [0xEA, 0xE6, 0x21, 0xC7] := by
  decide +kernel
/-- R40, R223: of the frames waiting, those that go on the wire leave the waiting ones. -/
theorem test_picked : picked (fun j => j == 1) [[1], [2], [3]] = [[2]] ∧ picked (fun j => !(j == 1)) [[1], [2], [3]] = [[1], [3]] := by
  decide +kernel

/-- R223: a level that becomes true makes one PHY_READY due, one that stays true none, one that falls none. -/
theorem test_level :
    let e := Env.reset cfg
    (e.sampled true).phyDue = 1 ∧ ((e.sampled true).sampled true).phyDue = 1 ∧
    ((e.sampled true).sampled false).phyDue = 1 ∧ (((e.sampled true).sampled false).sampled true).phyDue = 2 ∧
    (e.sampled true).riseAnnounced.phyDue = 0 ∧ (e.riseAnnounced.sampled true).phyDue = 0 := by decide +kernel

/-! ### Witnesses: concrete cases that meet the hypotheses of the obligations

`mid` is a station in the middle of its work, across the wrap of the sequence space: frames 14, 15 and 0 in flight with their
timers armed, frame 15 expected, frames 0 and 1 buffered, a NAK outstanding. -/

/-- A packet of the right length, whatever PKT_LEN is. -/
def pz : Packet := List.replicate hw.pktLen 0

def mid : State where
  ackExpected := 14
  nextFrameToSend := 1
  nbuffered := 3
  outBuf := List.replicate 8 pz
  frameExpected := 15
  tooFar := 7
  arrived := [true, true, false, false, false, false, false, false]
  inBuf := List.replicate 8 pz
  noNak := false
  ledger := [15, 0, 14]
  faultReg := ⟨false, .none⟩
  out := []
  inbox := []
  env :=
    { timers := [true, false, false, false, false, false, true, true]
      ackTimer := true
      phlReady := true
      phyDue := 1
      netResumed := true
      netWaiting := true
      accepted := [[0x02, 0x0E]]
      onWire := []
      delivered := List.replicate 15 pz
      doubleStart := false
      moments := 2 }

theorem pz_length : pz.length = hw.pktLen := List.length_replicate

theorem mem_pz {p : Packet} (h : p ∈ List.replicate 8 pz) : p.length = hw.pktLen := by
  rw [List.eq_of_mem_replicate h]; exact pz_length

theorem getD_pz {i : Nat} (h : i < 8) : (List.replicate 8 pz).getD i [] = pz := by interval_cases i <;> rfl

theorem mid_inv : mid.Inv hw where
  ackExpected_lt := by decide
  nextFrameToSend_lt := by decide
  nbuffered_le := by decide
  frameExpected_lt := by decide
  tooFar_lt := by decide
  outBuf_length := rfl
  outBuf_packets := fun _ => mem_pz
  inBuf_length := rfl
  inBuf_packets := fun _ => mem_pz
  arrived_length := rfl
  ledger_lt := by decide
  ledger_nodup := by decide
  ledger_length_le := by decide
  halted_iff := by decide
  timers_length := rfl
  sender := by decide
  receiver := by decide
  ledger_mem := by
    intro x
    simp only [mid, inWindow_iff, List.mem_cons, List.not_mem_nil, or_false, Config.hw_M]
    omega
  ledger_length := rfl
  expected_not_arrived := by decide
  armed_inflight := by
    intro i h
    have hi : i < 8 := by
      by_contra hc
      have : mid.env.armed i = false := by
        simp only [Env.armed, mid]; rw [List.getD_eq_default]; simp; omega
      rw [this] at h; cases h
    revert h
    simp only [Env.armed, mid]
    interval_cases i <;> decide
  resumed_room := fun _ => ⟨rfl, by decide⟩
  not_stuck := rfl

theorem mid_running : mid.running := rfl

/-- `mid` with nothing buffered and no NAK outstanding. -/
def quiet : State := { mid with arrived := List.replicate 8 false, noNak := true }

theorem quiet_inv : quiet.Inv hw :=
  { mid_inv with
    arrived_length := rfl
    expected_not_arrived := by decide }

/-- Bytes followed by their checksum. -/
def signed (b : Bytes) : Bytes := b ++ ckBytes hw.cksumOrder (hw.cksum b)

theorem signed_length (b : Bytes) : (signed b).length = b.length + 4 := by simp [signed]

theorem signed_valid (b : Bytes) :
    hw.cksum ((signed b).take ((signed b).length - 4)) = ckValue hw.cksumOrder ((signed b).drop ((signed b).length - 4)) := by
  rw [signed_length, Nat.add_sub_cancel, signed, List.take_left', List.drop_left', ckValue_ckBytes] <;> rfl

/-- Six bytes with a wrong checksum. -/
def corrupted : Bytes := [0, 0] ++ ckBytes hw.cksumOrder (hw.cksum [0, 0] + 1)

theorem corrupted_invalid :
    hw.cksum (corrupted.take (corrupted.length - 4)) ≠ ckValue hw.cksumOrder (corrupted.drop (corrupted.length - 4)) := by
  have h : corrupted.length - 4 = 2 := by simp [corrupted]
  rw [h, show corrupted.take 2 = [0, 0] from rfl,
    show corrupted.drop 2 = ckBytes hw.cksumOrder (hw.cksum [0, 0] + 1) from by simp [corrupted], ckValue_ckBytes]
  intro e
  generalize hw.cksum [0, 0] = v at e
  have h1 := congrArg BitVec.toNat e
  have := v.isLt
  have h2 : (1 : Word32).toNat = 1 := rfl
  rw [BitVec.toNat_add, h2] at h1
  omega

/-- A byte that is none of the three kinds. -/
def unknownKind : Byte := Config.openKindCodes 4

theorem unknownKind_ne :
    unknownKind ≠ hw.kindData ∧ unknownKind ≠ hw.kindAck ∧ unknownKind ≠ hw.kindNak := by
  simp [unknownKind, hw]

theorem wit_short : decodeAndValidate hw [0, 0, 0, 0, 0] = .decodeError .short := rfl

theorem wit_cksum : decodeAndValidate hw corrupted = .decodeError .cksum := by
  have h : ¬ corrupted.length < Config.minLen := by simp [corrupted]
  rw [decodeAndValidate, if_neg h, if_pos corrupted_invalid]

/-- The decoder on bytes with a valid checksum. -/
theorem decode_signed (b : Bytes) (h : 2 ≤ b.length) :
    decodeAndValidate hw (signed b) =
      if byteAt b 0 ≠ hw.kindData ∧ byteAt b 0 ≠ hw.kindAck ∧ byteAt b 0 ≠ hw.kindNak then .malformed .kind
      else if byteAt b 0 = hw.kindData ∧ b.length + 4 ≠ hw.dataLen then .malformed .length
      else if byteAt b 0 ≠ hw.kindData ∧ b.length + 4 ≠ 6 then .malformed .length
      else if (byteAt b 1).toNat > 15 then .malformed .field
      else if byteAt b 0 = hw.kindData ∧ (byteAt (signed b) 2).toNat > 15 then .malformed .field
      else if byteAt b 0 = hw.kindData then
        .ok (.data (byteAt b 1).toNat (byteAt (signed b) 2).toNat (((signed b).drop 3).take hw.pktLen))
      else if byteAt b 0 = hw.kindAck then .ok (.ack (byteAt b 1).toNat)
      else .ok (.nak (byteAt b 1).toNat) := by
  match b, h with
  | x :: y :: r, _ =>
    have h1 : ¬ (signed (x :: y :: r)).length < Config.minLen := by
      rw [signed_length]; simp only [Config.minLen, List.length_cons]; omega
    rw [decodeAndValidate, if_neg h1, if_neg (not_not.mpr (signed_valid _)), signed_length]
    rfl

theorem wit_kind : decodeAndValidate hw (signed [unknownKind, 0]) = .malformed .kind := by
  have h := unknownKind_ne
  rw [decode_signed _ (by simp)]; simp [byteAt, h]

theorem wit_length : decodeAndValidate hw (signed [hw.kindAck, 0, 0]) = .malformed .length := by
  have h := Config.hw_legal.data_ne_ack.symm
  rw [decode_signed _ (by simp)]; simp [byteAt, h]

theorem wit_field : decodeAndValidate hw (signed [hw.kindAck, 16]) = .malformed .field := by
  have h := Config.hw_legal.data_ne_ack.symm
  rw [decode_signed _ (by simp)]; simp [byteAt, h]

theorem wit_ack : decodeAndValidate hw (signed [hw.kindAck, 15]) = .ok (.ack 15) := by
  have h := Config.hw_legal.data_ne_ack.symm
  rw [decode_signed _ (by simp)]; simp [byteAt, h]

theorem wit_nak : decodeAndValidate hw (signed [hw.kindNak, 0]) = .ok (.nak 0) := by
  have h := Config.hw_legal.data_ne_nak.symm
  have h' := Config.hw_legal.ack_ne_nak.symm
  rw [decode_signed _ (by simp)]; simp [byteAt, h, h']

theorem wit_data : decodeAndValidate hw (signed ([hw.kindData, 15, 0] ++ pz)) = .ok (.data 15 0 pz) := by
  have h : ((hw.kindData :: 15 :: 0 :: pz).length + 4) = hw.dataLen := by
    simp [pz, Config.dataLen]; omega
  have h' : ((signed ([hw.kindData, 15, 0] ++ pz)).drop 3).take hw.pktLen = pz := by
    simp [signed, pz]
  have h2 : byteAt (signed ([hw.kindData, 15, 0] ++ pz)) 2 = 0 := rfl
  rw [decode_signed _ (by simp), h', h2]
  simp only [List.cons_append, List.nil_append, h]
  simp [byteAt]

/-! The witnesses proper, in the order of the obligations. A hypothesis `exec i s = .next t` is met by the `t` that the
equation itself names. -/

theorem witness_DecodeOfEncodeIsTheEvent :
    (Instr.netReady ⟨true, 7, 1⟩ pz).wf hw = true ∧ (Instr.frameRxData ⟨false, 0, 0⟩ 15 15 pz).wf hw = true ∧
    (Instr.frameRxAck ⟨true, 7, 1⟩ 15).wf hw = true ∧ (Instr.frameRx ⟨true, 0, 0⟩ [0, 0, 0, 0, 0]).wf hw = true := by
  refine ⟨?_, ?_, by decide +kernel, ?_⟩
  · simp [Instr.wf, header_wf_hw, pz_length]
  · simp [Instr.wf, header_wf_hw, Frame.wf, pz_length]
  · simp only [Instr.wf, show isFrame hw [0, 0, 0, 0, 0] = false from rfl]; decide +kernel

theorem witness_EncodeOfDecodeIsTheWord : decode hw ⟨0xFC, none⟩ = .ok (.ackTimeout ⟨true, 7, 1⟩) := rfl

theorem witness_DecodedEventsAreWellFormed :
    decode hw ⟨0xF8, some pz⟩ = .ok (.netReady ⟨true, 7, 1⟩ pz) ∧
    ∀ h p, Instr.netReady ⟨true, 7, 1⟩ pz = .netReady h p → p.length = hw.pktLen := by
  refine ⟨rfl, ?_⟩
  intro h p e; cases e; exact pz_length

/-- The legal builds at the ends of the range of n. -/
theorem witness_Legal : (suggestedConfig 1 1).Legal ∧ (suggestedConfig 8 4).Legal := by
  constructor <;> exact ⟨by decide, by decide, by decide, by decide, by decide, by decide⟩

theorem witness_FrameCodecRoundTrip :
    (Frame.data 255 0 [1, 2, 3, 4]).wf (suggestedConfig 8 4) = true ∧
    decodeAndValidate cfg [0x02, 0x0F, 0xEC, 0x6D, 0x50, 0xE3] = .ok (.ack 15) := by decide +kernel

theorem witness_EncodedFrameBytes : pz.length = hw.pktLen ∧ ([0xC7, 0x21, 0xE6, 0xEA] : Bytes).length = 4 := ⟨pz_length, rfl⟩

/-- One byte string for each clause: too short, wrong checksum, unknown kind, wrong length, field out of range, and a frame of
each kind. -/
theorem witness_FirstFailingCheckDecides :
    ([0, 0, 0, 0, 0] : Bytes).length < 6 ∧
    (6 ≤ corrupted.length ∧
      hw.cksum (corrupted.take (corrupted.length - 4)) ≠ ckValue hw.cksumOrder (corrupted.drop (corrupted.length - 4))) ∧
    (6 ≤ (signed [unknownKind, 0]).length ∧ unknownKind ≠ hw.kindData ∧ unknownKind ≠ hw.kindAck ∧
      unknownKind ≠ hw.kindNak) ∧
    (byteAt (signed [hw.kindAck, 0, 0]) 0 = hw.kindAck ∧ (signed [hw.kindAck, 0, 0]).length = 7) ∧
    (byteAt (signed [hw.kindAck, 16]) 0 = hw.kindAck ∧ (signed [hw.kindAck, 16]).length = 6 ∧
      (byteAt (signed [hw.kindAck, 16]) 1).toNat = 16) ∧
    ((signed ([hw.kindData, 15, 0] ++ pz)).length = 3 + hw.pktLen + 4 ∧
      byteAt (signed ([hw.kindData, 15, 0] ++ pz)) 0 = hw.kindData) ∧
    ((signed [hw.kindAck, 15]).length = 6 ∧ (byteAt (signed [hw.kindAck, 15]) 1).toNat = 15) ∧
    ((signed [hw.kindNak, 0]).length = 6 ∧ byteAt (signed [hw.kindNak, 0]) 0 = hw.kindNak) ∧
    ∀ b, hw.cksum ((signed b).take ((signed b).length - 4)) = ckValue hw.cksumOrder ((signed b).drop ((signed b).length - 4)) := by
  refine ⟨by decide, ⟨by simp [corrupted], corrupted_invalid⟩, ⟨by simp [signed_length], unknownKind_ne⟩,
    ⟨rfl, by simp [signed_length]⟩, ⟨rfl, by simp [signed_length], rfl⟩, ⟨by simp [signed_length, pz]; omega, rfl⟩,
    ⟨by simp [signed_length], rfl⟩, ⟨by simp [signed_length], rfl⟩, signed_valid⟩

theorem witness_ReservedOpcodesAreRefused :
    let s := { mid with inbox := [⟨0x05, none⟩, ⟨0xFF, some []⟩] }
    s.env.doubleStart = false ∧ s.inbox = ⟨0x05, none⟩ :: [⟨0xFF, some []⟩] ∧ 5 ≤ 0x05 % 8 ∧ 5 ≤ 0xFF % 8 := by
  refine ⟨rfl, rfl, by decide, by decide⟩

theorem witness_StepRunsTheDecodedEvent :
    let s := { mid with inbox := [⟨0x0C, none⟩, ⟨0x09, none⟩] }
    s.env.doubleStart = false ∧ s.inbox = ⟨0x0C, none⟩ :: [⟨0x09, none⟩] ∧
    decode hw ⟨0x0C, none⟩ = .ok (.ackTimeout ⟨true, 0, 0⟩) ∧ (Instr.ackTimeout ⟨true, 0, 0⟩).wf hw = true :=
  ⟨rfl, rfl, rfl, by decide +kernel⟩

/-- The four clauses: nothing presented; a header above eight bits; a packet of the wrong length; a stuck timer service. -/
theorem witness_StepWithoutAnEvent :
    (mid.env.doubleStart = false ∧ mid.inbox = []) ∧
    decode hw ⟨0x100, none⟩ = .error .headerTooWide ∧
    (decode hw ⟨0x08, some []⟩ = .ok (.netReady hi []) ∧ (Instr.netReady hi []).wf hw = false) ∧
    { mid with env := { mid.env with doubleStart := true } }.env.doubleStart = true := by
  refine ⟨⟨rfl, rfl⟩, rfl, ⟨rfl, test_wf_packet_length⟩, rfl⟩

/-- Edges of the sequence space. -/
theorem witness_InWindowIsModularDistance : hw.Legal ∧ 0 < hw.M ∧ 15 < hw.M := ⟨Config.hw_legal, by decide, by decide⟩

theorem witness_SlotsCollideHalfASpaceApart : hw.Legal ∧ 7 < hw.M ∧ 15 < hw.M ∧ (7 : Nat) ≠ 15 :=
  ⟨Config.hw_legal, by decide, by decide, by decide⟩

theorem witness_IncAndPrevAreInverse : hw.Legal ∧ 0 < hw.M ∧ 15 < hw.M := ⟨Config.hw_legal, by decide, by decide⟩

theorem witness_ForgetRemovesTheOneEntry : mid.ledger.Nodup ∧ 15 ∈ mid.ledger ∧ 7 ∉ mid.ledger := by decide

/-- A full window, a window with room, and a window in which the next number is already in the ledger (a state no run
reaches, R111). -/
theorem witness_NetReadyEvent :
    ({ mid with nbuffered := 8 } : State).running ∧ mid.outBuf.length = hw.W ∧
    (mid.nbuffered ≠ hw.W ∧ mid.nextFrameToSend ∉ mid.ledger) ∧
    (let s := { mid with ledger := [1] }; s.nbuffered ≠ hw.W ∧ s.nextFrameToSend ∈ s.ledger) :=
  ⟨rfl, rfl, by decide, by decide⟩

theorem witness_AckTimeoutEvent : mid.running := rfl

theorem witness_DataTimeoutEvent : mid.running ∧ State.reset.ledger = [] ∧ mid.ledger = 15 :: [0, 14] := ⟨rfl, rfl, rfl⟩

theorem witness_DecodeErrorEvent :
    mid.running ∧ decodeAndValidate hw [0, 0, 0, 0, 0] = .decodeError .short ∧
    decodeAndValidate hw corrupted = .decodeError .cksum := ⟨rfl, wit_short, wit_cksum⟩

theorem witness_MalformedFrameEvent :
    mid.running ∧ decodeAndValidate hw (signed [unknownKind, 0]) = .malformed .kind ∧
    decodeAndValidate hw (signed [hw.kindAck, 0, 0]) = .malformed .length ∧
    decodeAndValidate hw (signed [hw.kindAck, 16]) = .malformed .field := ⟨rfl, wit_kind, wit_length, wit_field⟩

theorem witness_FrameRxIsTheFormOfItsFrame :
    decodeAndValidate hw (signed ([hw.kindData, 15, 0] ++ pz)) = .ok (.data 15 0 pz) ∧
    decodeAndValidate hw (signed [hw.kindAck, 15]) = .ok (.ack 15) ∧
    decodeAndValidate hw (signed [hw.kindNak, 0]) = .ok (.nak 0) := ⟨wit_data, wit_ack, wit_nak⟩

/-- For AckFrameEvent and NakFrameEvent: ack values at both ends of the window 14, 15, 0 and outside it, and a NAK for a frame
in flight and for one that is not. -/
theorem witness_AckFrameEvent :
    mid.Wf hw ∧ mid.running ∧ 15 < hw.M ∧ inWindow 14 14 1 = true ∧ inWindow 14 0 1 = true ∧ inWindow 14 1 1 = false ∧
    inWindow mid.ackExpected (inc hw 15) mid.nextFrameToSend = true ∧
    inWindow mid.ackExpected (inc hw 0) mid.nextFrameToSend = false :=
  ⟨mid_inv.toWf, rfl, by decide, by decide, by decide, by decide, by decide, by decide⟩

theorem witness_NakFrameEvent : mid.Wf hw ∧ mid.running ∧ 15 < hw.M := ⟨mid_inv.toWf, rfl, by decide⟩

theorem witness_ExpectedDataFrameEvent : mid.Inv hw ∧ mid.running ∧ 15 < hw.M := ⟨mid_inv, rfl, by decide⟩

/-- Sequence number 6 is the last of the window 15 … 6. -/
theorem witness_OutOfOrderDataFrameEvent :
    mid.Inv hw ∧ mid.running ∧ 15 < hw.M ∧ 6 < hw.M ∧ 6 ≠ mid.frameExpected ∧
    inWindow mid.frameExpected 6 mid.tooFar = true ∧ arrivedBit (slot hw 6) mid = false :=
  ⟨mid_inv, rfl, by decide, by decide, by decide, by decide, by decide⟩

/-- Sequence number 7 is the first above the window; sequence number 0 is buffered. -/
theorem witness_DroppedDataFrameEvent :
    mid.Wf hw ∧ mid.running ∧ 15 < hw.M ∧ 7 ≠ mid.frameExpected ∧ 0 ≠ mid.frameExpected ∧
    inWindow mid.frameExpected 7 mid.tooFar = false ∧ arrivedBit (slot hw 0) mid = true :=
  ⟨mid_inv.toWf, rfl, by decide, by decide, by decide, by decide, by decide⟩

theorem witness_EveryFrameKindAcknowledges :
    mid.Wf hw ∧ mid.running ∧ 14 < hw.M ∧ Instr.frameRxNak hi 14 ∈ [Instr.frameRxData hi 14 0 pz, .frameRxAck hi 14, .frameRxNak hi 14] :=
  ⟨mid_inv.toWf, rfl, by decide, by simp⟩

theorem witness_HaltedCoreConsumesEveryEvent :
    isEvent (.ackTimeout hi) = true ∧ { mid with faultReg := ⟨true, .admissionOverrun⟩ }.faultReg.halted = true := ⟨rfl, rfl⟩

/-- A DATA_TIMEOUT on an empty ledger, and an admission beyond a full window, halt a running station. -/
theorem witness_FaultsArePreciseAndOfThreeCauses :
    (∃ t, exec (.dataTimeout hi) State.reset = .next t ∧ State.reset.running ∧ ¬t.running) ∧
    ∃ t, exec (.netReady hi pz) { mid with nbuffered := 8 } = .next t ∧ mid.running ∧ ¬t.running := by
  refine ⟨⟨_, rfl, rfl, ?_⟩, ⟨_, rfl, rfl, ?_⟩⟩ <;> exact fun h => Bool.noConfusion h

theorem witness_GateCommandEndsEveryEvent : isEvent (.frameRxAck hi 15) = true := rfl

/-- An event that has a next state, and one for each of the three premises of the second part. -/
theorem witness_AtMostOneFramePerEvent :
    (∃ t, exec (.netReady hi pz) mid = .next t) ∧ (∃ t, exec (.phyReady hi) mid = .next t) ∧
    (∃ t, exec (.frameRxAck hi 15) mid = .next t) ∧
    ∃ t, exec (.frameRx hi (signed [unknownKind, 0])) mid = .next t ∧
      decodeAndValidate hw (signed [unknownKind, 0]) = .malformed .kind :=
  ⟨⟨_, rfl⟩, ⟨_, rfl⟩, ⟨_, rfl⟩, ⟨_, rfl, wit_kind⟩⟩

/-- For the statements with the premises `Inv`, well-formed and a next state: the whole-machine rules and the invariants. -/
theorem witness_OutputsOfOneEventAreBounded :
    mid.Inv hw ∧ (Instr.frameRxData hi 15 15 pz).wf hw = true ∧ ∃ t, exec (.frameRxData hi 15 15 pz) mid = .next t :=
  ⟨mid_inv, by simp [Instr.wf, header_wf_hw, Frame.wf, pz_length, hi], _, rfl⟩

theorem witness_WindowAdvancesByTheDeliveries :
    mid.Inv hw ∧ (Instr.frameRxData hi 15 15 pz).wf hw = true ∧ ∃ t, exec (.frameRxData hi 15 15 pz) mid = .next t :=
  witness_OutputsOfOneEventAreBounded

/-- One event for each premise: a writer of nothing but the gate command, a frame that is none, an admission, a timeout. -/
theorem witness_OnlyTheNamedEventsWriteARegister :
    (∃ t, exec (.ackTimeout hi) mid = .next t) ∧ isFrame hw [0, 0, 0, 0, 0] = false ∧
    (∃ t, exec (.netReady hi pz) mid = .next t) ∧ ∃ t, exec (.dataTimeout hi) mid = .next t :=
  ⟨⟨_, rfl⟩, rfl, ⟨_, rfl⟩, ⟨_, rfl⟩⟩

theorem witness_CoreIgnoresItsCollaborators :
    let s' := { mid with env := Env.reset hw, inbox := [⟨0x09, none⟩] }
    SameCore mid s' ∧ (∃ t, exec (.dataTimeout hi) mid = .next t) ∧ ∃ t', exec (.dataTimeout hi) s' = .next t' :=
  ⟨⟨⟨rfl, rfl, rfl, rfl, rfl⟩, ⟨rfl, rfl, rfl, rfl, rfl⟩, rfl⟩, ⟨_, rfl⟩, ⟨_, rfl⟩⟩

theorem witness_SlotFieldAndReservedBitAreIgnored : (⟨true, 0, 0⟩ : Header).phl = (⟨true, 7, 1⟩ : Header).phl := rfl

theorem witness_CollaboratorsPerformTheOutputs : ∃ t, exec (.frameRxNak hi 14) mid = .next t := ⟨_, rfl⟩

/-- The last slot's timer is armed and the one before the last idle; an ACK frame is none of the events that deliver something. -/
theorem witness_CommandsActOnTheirCollaborator :
    (5 < mid.env.timers.length ∧ mid.env.armed 5 = false) ∧ mid.env.armed 7 = true ∧
    (∀ h, Instr.frameRxAck hi 0 ≠ .dataTimeout h) ∧ (∀ h, Instr.frameRxAck hi 0 ≠ .ackTimeout h) ∧
    (∀ h p, Instr.frameRxAck hi 0 ≠ .netReady h p) ∧ ∀ h, Instr.frameRxAck hi 0 ≠ .phyReady h := by
  refine ⟨⟨by decide, rfl⟩, rfl, ?_, ?_, ?_, ?_⟩ <;> intros <;> simp

/-- A rise seen with an ACK frame; a PHY_READY that is due, and one that is not; a step that waits. -/
theorem witness_PhyReadyIsDueForEveryRise :
    ((∀ h, Instr.frameRxAck hi 0 ≠ .phyReady h) ∧ rise State.reset.env.phlReady (Instr.frameRxAck hi 0).header.phl = 1 ∧
      ∃ t, exec (.frameRxAck hi 0) State.reset = .next t) ∧
    (0 < mid.env.phyDue ∧ ∃ t, exec (.phyReady hi) mid = .next t) ∧
    (State.reset.env.phyDue = 0 ∧ ∃ t, exec (.phyReady hi) State.reset = .next t) ∧
    State.reset.inbox = [] ∧ ∃ t, step State.reset = .next t :=
  ⟨⟨by intros; simp, rfl, _, rfl⟩, ⟨by decide, _, rfl⟩, ⟨rfl, _, rfl⟩, rfl, _, rfl⟩

/-- A station with a frame waiting that transmits another. -/
theorem witness_AcceptedFramesWaitOrAreOnTheWire :
    mid.env.accepted ≠ [] ∧ ∃ t, exec (.ackTimeout hi) mid = .next t ∧ Command.tx (encodeFrame hw (.ack 14)) ∈ t.out :=
  ⟨by decide, _, rfl, List.mem_cons_self⟩

theorem witness_WaitingPacketStaysUntilHandedOver :
    mid.env.netWaiting = true ∧ (∀ h p, Instr.phyReady lo ≠ .netReady h p) ∧ ∃ t, exec (.phyReady lo) mid = .next t :=
  ⟨rfl, by intros; simp, _, rfl⟩

theorem witness_NoSecondNakForAGap :
    mid.Inv hw ∧ (Instr.frameRxData hi 15 3 pz).wf hw = true ∧ mid.noNak = false ∧
    ∃ t, exec (.frameRxData hi 15 3 pz) mid = .next t :=
  ⟨mid_inv, by simp [Instr.wf, header_wf_hw, Frame.wf, pz_length, hi], rfl, _, rfl⟩

/-- Both ends of the window 15 … 6. -/
theorem witness_DuplicateDataFrameIsDeliveredOnce :
    mid.Inv hw ∧ mid.running ∧ inWindow mid.frameExpected 15 mid.tooFar = true ∧
    inWindow mid.frameExpected 6 mid.tooFar = true ∧
    ∃ t u, exec (.frameRxData hi 14 15 pz) mid = .next t ∧ exec (.frameRxData lo 15 15 pz) t = .next u :=
  ⟨mid_inv, rfl, by decide, by decide, _, _, rfl, rfl⟩

theorem witness_RepeatedAckReleasesNothing :
    mid.Wf hw ∧ mid.running ∧ 15 < hw.M ∧ ∃ t, exec (.frameRxAck hi 15) mid = .next t :=
  ⟨mid_inv.toWf, rfl, by decide, _, rfl⟩

/-- A station that transmits: an admission. -/
theorem witness_EmittedFramesAreValidAndCarryTheAckValue :
    mid.Inv hw ∧ (Instr.ackTimeout hi).wf hw = true ∧
    ∃ t, exec (.ackTimeout hi) mid = .next t ∧ Command.tx (encodeFrame hw (.ack 14)) ∈ t.out :=
  ⟨mid_inv, by decide +kernel, _, rfl, List.mem_cons_self⟩

theorem witness_StepKeepsTheInvariants :
    let s := { mid with inbox := [⟨0x0C, none⟩] }
    s.Inv hw ∧ ∃ t, step s = .next t := by
  refine ⟨{ mid_inv with }, _, rfl⟩

/-- An admission while admission is resumed, a timeout of an armed timer, an ack timeout while that timer is armed. -/
theorem witness_ContractKeepsTheStationRunning :
    mid.Inv hw ∧ mid.running ∧ (Instr.netReady hi pz).wf hw = true ∧ mid.env.allows (.netReady hi pz) = true ∧
    mid.env.allows (.dataTimeout ⟨true, 7, 0⟩) = true ∧ mid.env.allows (.ackTimeout hi) = true ∧
    mid.env.allows (.phyReady hi) = true ∧ (Env.reset hw).allows (.phyReady hi) = true :=
  ⟨mid_inv, rfl, by simp [Instr.wf, header_wf_hw, pz_length, hi], rfl, rfl, rfl, rfl, rfl⟩

/-- Fifteen packets delivered so far, all of them `pz`. -/
theorem witness_DeliveryIsInOrderAndExactlyOnce :
    mid.Inv hw ∧ DeliveredPrefix hw (fun _ => pz) 15 mid ∧ (Instr.frameRxData hi 15 15 pz).wf hw = true ∧
    (∀ h a x p, Instr.frameRxData hi 15 15 pz = .frameRxData h a x p → p = pz) ∧
    ∃ t, exec (.frameRxData hi 15 15 pz) mid = .next t := by
  refine ⟨mid_inv, ⟨rfl, rfl, ?_⟩, by simp [Instr.wf, header_wf_hw, Frame.wf, pz_length, hi], ?_, _, rfl⟩
  · intro j _ h _
    have hs : slot hw (15 + j) < 8 := slot_lt Config.hw_legal _
    exact getD_pz hs
  · intro h a x p e; cases e; rfl

/-- Seventeen packets admitted so far, the last three in flight. -/
theorem witness_TransmittedDataIsWhatWasAdmitted :
    mid.Inv hw ∧ AdmittedHeld hw (fun _ => pz) 17 mid ∧ (Instr.netReady hi pz).wf hw = true ∧
    (∀ h p, Instr.netReady hi pz = .netReady h p → p = pz) ∧ ∃ t, exec (.netReady hi pz) mid = .next t := by
  refine ⟨mid_inv, ⟨rfl, by decide, ?_⟩, by simp [Instr.wf, header_wf_hw, pz_length, hi], ?_, _, rfl⟩
  · intro k _ _
    have hs : slot hw k < 8 := slot_lt Config.hw_legal _
    exact getD_pz hs
  · intro h p e; cases e; rfl

end Sys2Proof.Tests
end

section
/-! Inversion of the codec and of the event decoder: what is known of a byte string or of an event word that decodes. -/

namespace Sys2Proof.Machine

/-- R123: all that a byte string has passed when a frame is found in it, and the frame parsed from its fixed offsets. -/
theorem decodeAndValidate_eq_ok {c : Config} {b : Bytes} {f : Frame} (h : decodeAndValidate c b = .ok f) :
    Config.minLen ≤ b.length ∧
    c.cksum (b.take (b.length - 4)) = ckValue c.cksumOrder (b.drop (b.length - 4)) ∧
    (byteAt b 1).toNat ≤ c.maxSeq ∧
    ((byteAt b 0 = c.kindData ∧ b.length = c.dataLen ∧ (byteAt b 2).toNat ≤ c.maxSeq ∧
        f = .data (byteAt b 1).toNat (byteAt b 2).toNat ((b.drop 3).take c.pktLen)) ∨
      (byteAt b 0 = c.kindAck ∧ b.length = Config.ctrlLen ∧ f = .ack (byteAt b 1).toNat) ∨
      (byteAt b 0 = c.kindNak ∧ b.length = Config.ctrlLen ∧ f = .nak (byteAt b 1).toNat)) := by
  unfold decodeAndValidate at h
  split at h; · cases h
  next hmin =>
  split at h; · cases h
  next hsum =>
  split at h; · cases h
  next hkind =>
  split at h; · cases h
  next hdataLen =>
  split at h; · cases h
  next hctrlLen =>
  split at h; · cases h
  next hack =>
  split at h; · cases h
  next hseq =>
  refine ⟨Nat.le_of_not_lt hmin, not_not.mp hsum, Nat.le_of_not_lt hack, ?_⟩
  split at h
  next hdata =>
    cases h
    exact .inl ⟨hdata, not_not.mp fun hl => hdataLen ⟨hdata, hl⟩, Nat.le_of_not_lt fun hs => hseq ⟨hdata, hs⟩, rfl⟩
  next hdata =>
    have hlen : b.length = Config.ctrlLen := not_not.mp fun hl => hctrlLen ⟨hdata, hl⟩
    split at h
    next hkindAck => cases h; exact .inr (.inl ⟨hkindAck, hlen, rfl⟩)
    next hkindAck => cases h; exact .inr (.inr ⟨not_not.mp fun hn => hkind ⟨hdata, hkindAck, hn⟩, hlen, rfl⟩)

/-- R78, R123: a frame that the codec finds is in range. -/
theorem decodeAndValidate_wf {c : Config} {b : Bytes} {f : Frame} (h : decodeAndValidate c b = .ok f) :
    f.wf c = true := by
  obtain ⟨-, -, hack, ⟨-, hlen, hseq, rfl⟩ | ⟨-, -, rfl⟩ | ⟨-, -, rfl⟩⟩ := decodeAndValidate_eq_ok h
  · have hpayload : ((b.drop 3).take c.pktLen).length = c.pktLen := by
      simp only [List.length_take, List.length_drop, hlen, Config.dataLen]; omega
    simp only [Frame.wf, Bool.and_eq_true, decide_eq_true_eq]
    exact ⟨⟨hack, hseq⟩, hpayload⟩
  · exact decide_eq_true hack
  · exact decide_eq_true hack

end Sys2Proof.Machine

namespace Sys2Proof

@[simp] theorem withOperand_eq_ok {o : Option Bytes} {k : Bytes → Instr} {i : Instr} :
    withOperand o k = .ok i ↔ ∃ b, o = some b ∧ k b = i := by
  cases o <;> simp [withOperand]

@[simp] theorem withoutOperand_eq_ok {o : Option Bytes} {i j : Instr} :
    withoutOperand o i = .ok j ↔ o = none ∧ i = j := by
  cases o <;> simp [withoutOperand]

/-- R80: an event word that decodes has a header of the header's width, and its opcode decides. -/
theorem decode_eq_ok {c : Config} {ev : EventWord} {i : Instr} :
    decode c ev = .ok i ↔
      ev.header < 2 ^ c.hdrBits ∧
        decodeOp c (headerOp ev.header) (decodeHeader c ev.header) ev.operand = .ok i := by
  unfold decode
  split
  next hwide => exact iff_of_false (by simp) fun h => absurd h.1 (Nat.not_lt.mpr hwide)
  next hwide => exact (and_iff_right (Nat.lt_of_not_le hwide)).symm

/-- R80: the fields cut from a one-byte header are in their widths. -/
theorem decodeHeader_wf_hw {h : Nat} (hh : h < 2 ^ Config.hw.hdrBits) :
    (decodeHeader Config.hw h).wf Config.hw = true := by
  rw [Machine.header_wf_hw]
  simp only [decodeHeader, headerSlot, headerReserved, Config.hw_W, Config.hw_hdrBits] at hh ⊢
  omega

/-- R83: a FRAME_RX is well-formed in whichever form its operand gives it. -/
theorem decodeFrameRx_wf {c : Config} {h : Header} (hh : h.wf c = true) (b : Bytes) :
    (decodeFrameRx c h b).wf c = true := by
  cases hb : Machine.decodeAndValidate c b with
  | ok f =>
    have hf := Machine.decodeAndValidate_wf hb
    cases f <;> simp [decodeFrameRx, hb, Instr.wf, hh, hf]
  | decodeError e => simp [decodeFrameRx, hb, Instr.wf, hh, isFrame]
  | malformed e => simp [decodeFrameRx, hb, Instr.wf, hh, isFrame]

/-- R81: whatever the opcode, a well-formed header gives a well-formed event, the packet of a NET_READY apart. -/
theorem decodeOp_wf {c : Config} {op : Nat} {h : Header} {o : Option Bytes} {i : Instr} (hh : h.wf c = true)
    (hi : decodeOp c op h o = .ok i) (hp : ∀ h' p, i = .netReady h' p → p.length = c.pktLen) : i.wf c = true := by
  unfold decodeOp at hi
  split at hi
  next =>
    obtain ⟨p, -, rfl⟩ := withOperand_eq_ok.mp hi
    simp [Instr.wf, hh, hp h p rfl]
  next => obtain ⟨-, rfl⟩ := withoutOperand_eq_ok.mp hi; exact hh
  next =>
    obtain ⟨b, -, rfl⟩ := withOperand_eq_ok.mp hi
    exact decodeFrameRx_wf hh b
  next => obtain ⟨-, rfl⟩ := withoutOperand_eq_ok.mp hi; exact hh
  next => obtain ⟨-, rfl⟩ := withoutOperand_eq_ok.mp hi; exact hh
  next => cases hi; exact hh
  next => cases hi; exact hh
  next => cases hi; exact hh

end Sys2Proof
end

section
/-! What `step` does with a presented word. -/

namespace Sys2Proof.Machine

/-- R60: taking the next event leaves the others in their order. -/
theorem takeEvent_eq {s : State} {ev : EventWord} {rest : List EventWord} (h : s.inbox = ev :: rest) :
    takeEvent s = { s with inbox := rest } := by
  simp [takeEvent, h]

/-- R12, R59: a word that decodes is run if it is an event of this build, and refused otherwise. -/
theorem step_of_decode_ok {s : State} {ev : EventWord} {rest : List EventWord} {i : Instr}
    (hstuck : s.env.doubleStart = false) (hin : s.inbox = ev :: rest) (hdec : decode Config.hw ev = .ok i) :
    step s = if i.wf Config.hw then exec i { s with inbox := rest } else .refused .illFormed := by
  simp [step, hstuck, hin, hdec, takeEvent_eq hin]

end Sys2Proof.Machine
end

section
/-! The obligations of the encoding and of the step. -/

open Sys2Proof Sys2Proof.Machine

/-- Settles O4: the header's fields are in their widths, and each opcode keeps the event well-formed. -/
theorem decodedEventsAreWellFormed : Obligations.DecodedEventsAreWellFormed := by
  intro ev i hdec hpacket
  obtain ⟨hwidth, hop⟩ := decode_eq_ok.mp hdec
  exact decodeOp_wf (decodeHeader_wf_hw hwidth) hop hpacket

/-- Settles O9: the word decodes and is an event of this build, so it is run. -/
theorem stepRunsTheDecodedEvent : Obligations.StepRunsTheDecodedEvent := by
  intro s ev rest i hstuck hin hdec hwf
  rw [step_of_decode_ok hstuck hin hdec, if_pos hwf]

end

section
/-! An event of any kind as one handler between the start of its output list and the gate, and the handler's independence of
what stands around the core (R40, R190). -/

namespace Sys2Proof.Machine

open Sys2Proof
open Sys2Proof.Config (hw)

/-- R191 to R195: the handler of each event; the reserved opcodes have none (R82). -/
def handler (c : Config) : Instr → State → State
  | .netReady _ p => admitPacket c p
  | .phyReady _ => id
  | .frameRx _ b => frameReceived c b
  | .dataTimeout _ => timeoutRetransmit c
  | .ackTimeout _ => sendAck c
  | .reservedEvent5 _ _ => id
  | .reservedEvent6 _ _ => id
  | .reservedEvent7 _ _ => id
  | .frameRxData _ a x p => frameArrive c (.data a x p)
  | .frameRxAck _ a => frameArrive c (.ack a)
  | .frameRxNak _ a => frameArrive c (.nak a)

/-- The state with other waiting events and other collaborators: all that an event finds beside the core (R40, R60). -/
def State.around (b : List EventWord) (e : Env) (s : State) : State := { s with inbox := b, env := e }

section Around

variable (c : Config) (b : List EventWord) (e : Env) (s : State)

theorem ackReleaseLoop_around (a fuel : Nat) :
    ackReleaseLoop c a fuel (s.around b e) = (ackReleaseLoop c a fuel s).around b e := by
  induction fuel generalizing s with
  | zero => rfl
  | succ k ih =>
    have hround : releaseOne c (s.around b e) = (releaseOne c s).around b e := rfl
    simp only [ackReleaseLoop, hround, ih, apply_ite (State.around b e)]
    rfl

theorem drainLoop_around (fuel : Nat) : drainLoop c fuel (s.around b e) = (drainLoop c fuel s).around b e := by
  induction fuel generalizing s with
  | zero => rfl
  | succ k ih =>
    have hround : drainOne c (s.around b e) = (drainOne c s).around b e := rfl
    simp only [drainLoop, hround, ih, apply_ite (State.around b e)]
    rfl

theorem admitPacket_around (p : Packet) : admitPacket c p (s.around b e) = (admitPacket c p s).around b e := by
  simp only [admitPacket, apply_ite (State.around b e)]
  rfl

theorem timeoutRetransmit_around : timeoutRetransmit c (s.around b e) = (timeoutRetransmit c s).around b e := by
  have hhead : oldest (s.around b e) = oldest s := rfl
  unfold timeoutRetransmit
  rw [hhead]
  cases oldest s <;> rfl

theorem decodeErrorArrive_around : decodeErrorArrive c (s.around b e) = (decodeErrorArrive c s).around b e := by
  simp only [decodeErrorArrive, apply_ite (State.around b e)]
  rfl

theorem nakRetransmit_around (a : Nat) : nakRetransmit c a (s.around b e) = (nakRetransmit c a s).around b e := by
  simp only [nakRetransmit, apply_ite (State.around b e)]
  rfl

theorem dataArrive_around (x : Nat) (p : Packet) :
    dataArrive c x p (s.around b e) = (dataArrive c x p s).around b e := by
  have hnak : ∀ u : State, nakOrDelay c x (u.around b e) = (nakOrDelay c x u).around b e := by
    intro u
    simp only [nakOrDelay, apply_ite (State.around b e)]
    rfl
  have haccept : ∀ u : State, acceptFrame c x p (u.around b e) = (acceptFrame c x p u).around b e := by
    intro u
    have hbuffer : bufferFrame c x p (u.around b e) = (bufferFrame c x p u).around b e := rfl
    simp only [acceptFrame, hbuffer, drain, drainLoop_around, apply_ite (State.around b e)]
    rfl
  simp only [dataArrive, hnak, haccept]

theorem frameArrive_around (f : Frame) : frameArrive c f (s.around b e) = (frameArrive c f s).around b e := by
  cases f with
  | data a x p => simp only [frameArrive, ackRelease, dataArrive_around, ackReleaseLoop_around]
  | ack a => simp only [frameArrive, ackRelease, ackReleaseLoop_around]
  | nak a => simp only [frameArrive, ackRelease, ackReleaseLoop_around, nakRetransmit_around]

theorem frameReceived_around (r : Bytes) :
    frameReceived c r (s.around b e) = (frameReceived c r s).around b e := by
  unfold frameReceived
  cases decodeAndValidate c r with
  | ok f => exact frameArrive_around c b e s f
  | decodeError _ => exact decodeErrorArrive_around c b e s
  | malformed _ => rfl

/-- R40: no handler reads or writes what stands around the core. -/
theorem handler_around (i : Instr) : handler c i (s.around b e) = (handler c i s).around b e := by
  cases i with
  | netReady _ p => exact admitPacket_around c b e s p
  | frameRx _ r => exact frameReceived_around c b e s r
  | dataTimeout _ => exact timeoutRetransmit_around c b e s
  | frameRxData _ a x p => exact frameArrive_around c b e s (.data a x p)
  | frameRxAck _ a => exact frameArrive_around c b e s (.ack a)
  | frameRxNak _ a => exact frameArrive_around c b e s (.nak a)
  | phyReady _ => rfl
  | ackTimeout _ => rfl
  | reservedEvent5 _ _ => rfl
  | reservedEvent6 _ _ => rfl
  | reservedEvent7 _ _ => rfl

end Around

/-- R190: the core's part of an event on this hardware, from the empty output list to the gate command. -/
def coreAfter (i : Instr) (s : State) : State := coreEvent hw i.header.phl (handler hw i) s

/-- R190, R197: the handler's result, or the state as it was if the station is halted, with the output list emptied first. -/
def handled (i : Instr) (s : State) : State := whenRunning (handler hw i) (beginEvent s)

/-- R196: the gate adds its command to what the handler left. -/
theorem coreAfter_eq (i : Instr) (s : State) :
    coreAfter i s = { handled i s with
      out := (handled i s).out ++
        [gateCommand hw i.header.phl (handled i s).faultReg.halted (handled i s).nbuffered] } :=
  gate_eq hw i.header.phl (handled i s)

/-- R190, R197: what holds of the state with its output list emptied, and of what the handler makes of it, holds of the state the
handler leaves. -/
theorem handled_of {R : State → Prop} {i : Instr} {s : State} (hbegin : R (beginEvent s))
    (hrun : s.running → R (handler hw i (beginEvent s))) : R (handled i s) := by
  unfold handled whenRunning
  split
  next => exact hbegin
  next hr => exact hrun (Bool.eq_false_iff.mpr hr)

theorem handled_around (i : Instr) (b : List EventWord) (e : Env) (s : State) :
    handled i (s.around b e) = (handled i s).around b e := by
  have hbegin : beginEvent (s.around b e) = (beginEvent s).around b e := rfl
  simp only [handled, whenRunning, hbegin, handler_around, apply_ite (State.around b e)]
  rfl

theorem coreAfter_around (i : Instr) (b : List EventWord) (e : Env) (s : State) :
    coreAfter i (s.around b e) = (coreAfter i s).around b e := by
  simp only [coreAfter_eq, handled_around]
  rfl

/-- R60: no event touches the waiting events. -/
theorem coreAfter_inbox (i : Instr) (s : State) : (coreAfter i s).inbox = s.inbox := by
  have h := congrArg State.inbox (coreAfter_around i s.inbox s.env s)
  exact h

/-- The collaborators as an event finds them: it has been delivered and the level has been sampled (R196, R221 to R224). -/
def envBefore (i : Instr) (e : Env) : Env := (eventDelivery i e).sampled i.header.phl

/-- R61, R190: an event is the core's part of it, whose commands the collaborators then perform. -/
theorem exec_eq_next {i : Instr} {s t : State} (h : exec i s = .next t) :
    t = { coreAfter i s with env := envAfter i (coreAfter i s).out s.env } := by
  have hrun : ∀ deliver : Env → Env, deliver s.env = eventDelivery i s.env →
      runEvent hw i.header.phl deliver (handler hw i) s =
        { coreAfter i s with env := envAfter i (coreAfter i s).out s.env } := by
    intro deliver hdeliver
    have hcore : coreAfter i { s with env := deliver s.env } = (coreAfter i s).around s.inbox (deliver s.env) :=
      coreAfter_around i s.inbox (deliver s.env) s
    change settle hw i.header.phl (coreAfter i { s with env := deliver s.env }) = _
    rw [hcore, hdeliver]
    simp only [settle, State.around, envAfter, ← coreAfter_inbox i s]
  cases i <;> cases h <;> exact hrun _ rfl

end Sys2Proof.Machine
end

section
/-! What the operations of an event leave unchanged, for every value of the registers: the sender's operations leave the receiver
and deliver nothing, the receiver's leave the sender and send no DATA frame (R20, R52, R53). -/

namespace Sys2Proof.Machine

open Sys2Proof
open Sys2Proof.Config (hw)

theorem SameReceiver.refl (s : State) : SameReceiver s s := ⟨rfl, rfl, rfl, rfl, rfl⟩

theorem SameSender.refl (s : State) : SameSender s s := ⟨rfl, rfl, rfl, rfl, rfl⟩

/-- `u` comes from `s` by operations that keep the receiver's registers and deliver no packet. -/
structure LeavesReceiver (s u : State) : Prop extends SameReceiver s u where
  out : ∃ ks, u.out = s.out ++ ks ∧ ∀ k ∈ ks, k.isDeliver = false

/-- Is the command one that only the sender's operations emit: a DATA frame, or one for a retransmission timer (R140, R142,
R144)? -/
def Command.isSenders (c : Config) : Command → Prop
  | .tx b => ∃ a x p, decodeAndValidate c b = .ok (.data a x p)
  | .startTimer _ => True
  | .stopTimer _ => True
  | _ => False

/-- `u` comes from `s` by operations that keep the sender's registers and the ledger, send no DATA frame and leave the
retransmission timers alone. -/
structure LeavesSender (c : Config) (s u : State) : Prop extends SameSender s u where
  out : ∃ ks, u.out = s.out ++ ks ∧ ∀ k ∈ ks, ¬k.isSenders c

/-- Emptying the output list touches no register (R190). -/
theorem SameReceiver.of_beginEvent {s u : State} (h : SameReceiver (beginEvent s) u) : SameReceiver s u :=
  ⟨h.frameExpected, h.tooFar, h.arrived, h.inBuf, h.noNak⟩

theorem SameSender.of_beginEvent {s u : State} (h : SameSender (beginEvent s) u) : SameSender s u :=
  ⟨h.ackExpected, h.nextFrameToSend, h.nbuffered, h.outBuf, h.ledger⟩

/-! ### The sender's operations -/

namespace LeavesReceiver

variable {s u v : State} (c : Config)

theorem refl (s : State) : LeavesReceiver s s := ⟨.refl s, [], by simp, by simp⟩

theorem trans (h : LeavesReceiver s u) (h' : LeavesReceiver u v) : LeavesReceiver s v := by
  obtain ⟨⟨hf, ht, ha, hb, hn⟩, ks, hks, hquiet⟩ := h
  obtain ⟨⟨hf', ht', ha', hb', hn'⟩, ls, hls, hquiet'⟩ := h'
  refine ⟨⟨hf'.trans hf, ht'.trans ht, ha'.trans ha, hb'.trans hb, hn'.trans hn⟩, ks ++ ls, ?_, ?_⟩
  · rw [hls, hks, List.append_assoc]
  · intro k hk
    exact (List.mem_append.mp hk).elim (hquiet k) (hquiet' k)

theorem emit {k : Command} (hk : k.isDeliver = false) (s : State) : LeavesReceiver s (emit k s) :=
  ⟨⟨rfl, rfl, rfl, rfl, rfl⟩, [k], rfl, by simpa using hk⟩

theorem raiseFault (cause : FaultCause) (s : State) : LeavesReceiver s (raiseFault cause s) :=
  ⟨⟨rfl, rfl, rfl, rfl, rfl⟩, [], by simp, by simp⟩

theorem sendData (x : Nat) (s : State) : LeavesReceiver s (sendData c x s) := by
  rw [sendData_eq]
  exact ⟨⟨rfl, rfl, rfl, rfl, rfl⟩, _, rfl, by simp [Command.isDeliver]⟩

theorem admitEffects (p : Packet) (s : State) : LeavesReceiver s (admitEffects c p s) := by
  obtain ⟨⟨hf, ht, ha, hb, hn⟩, hout⟩ :=
    LeavesReceiver.sendData c s.nextFrameToSend (memWrite .outBuf (slot c s.nextFrameToSend) p s)
  exact ⟨⟨hf, ht, ha, hb, hn⟩, hout⟩

theorem admitPacket (p : Packet) (s : State) : LeavesReceiver s (admitPacket c p s) := by
  rcases admitPacket_cases c p s with ⟨-, h⟩ | ⟨-, -, h⟩ | ⟨-, -, h⟩ <;> rw [h]
  · exact .raiseFault _ s
  · exact .raiseFault _ s
  · exact .admitEffects c p s

theorem retransmit (x : Nat) (s : State) : LeavesReceiver s (retransmit c x s) := by
  rw [retransmit_eq]
  exact ⟨⟨rfl, rfl, rfl, rfl, rfl⟩, _, rfl, by simp [Command.isDeliver]⟩

theorem timeoutRetransmit (s : State) : LeavesReceiver s (timeoutRetransmit c s) := by
  rcases timeoutRetransmit_cases c s with ⟨-, h⟩ | ⟨x, rest, -, h⟩ <;> rw [h]
  · exact .raiseFault _ s
  · exact .retransmit c x s

theorem nakRetransmit (a : Nat) (s : State) : LeavesReceiver s (nakRetransmit c a s) := by
  rcases nakRetransmit_cases c a s with ⟨-, h⟩ | ⟨-, h⟩ <;> rw [h]
  · exact .retransmit c _ s
  · exact .refl s

theorem ackRelease (a : Nat) (s : State) : LeavesReceiver s (ackRelease c a s) := by
  obtain ⟨ae, nb, lg, st, h, hstops⟩ := ackReleaseLoop_frame c a c.M s
  rw [Machine.ackRelease, h]
  refine ⟨⟨rfl, rfl, rfl, rfl, rfl⟩, st, rfl, fun k hk => ?_⟩
  have hk' := hstops k hk
  cases k with
  | deliver _ => cases hk'
  | _ => rfl

end LeavesReceiver

/-! ### The receiver's operations -/

/-- R74: an ACK frame is no DATA frame. -/
theorem not_isSenders_ack {c : Config} (hc : c.Legal) (a : Nat) :
    ¬(Command.tx (encodeFrame c (.ack a))).isSenders c := by
  rintro ⟨a', x, p, h⟩
  obtain ⟨-, -, -, ⟨hkind, -⟩ | ⟨-, -, hf⟩ | ⟨-, -, hf⟩⟩ := decodeAndValidate_eq_ok h
  · exact hc.data_ne_ack hkind.symm
  · cases hf
  · cases hf

/-- R74: a NAK frame is no DATA frame. -/
theorem not_isSenders_nak {c : Config} (hc : c.Legal) (a : Nat) :
    ¬(Command.tx (encodeFrame c (.nak a))).isSenders c := by
  rintro ⟨a', x, p, h⟩
  obtain ⟨-, -, -, ⟨hkind, -⟩ | ⟨-, -, hf⟩ | ⟨-, -, hf⟩⟩ := decodeAndValidate_eq_ok h
  · exact hc.data_ne_nak hkind.symm
  · cases hf
  · cases hf

namespace LeavesSender

variable {c : Config} {s u v : State}

theorem refl (s : State) : LeavesSender c s s := ⟨.refl s, [], by simp, by simp⟩

theorem trans (h : LeavesSender c s u) (h' : LeavesSender c u v) : LeavesSender c s v := by
  obtain ⟨⟨ha, hf, hn, hb, hl⟩, ks, hks, hquiet⟩ := h
  obtain ⟨⟨ha', hf', hn', hb', hl'⟩, ls, hls, hquiet'⟩ := h'
  refine ⟨⟨ha'.trans ha, hf'.trans hf, hn'.trans hn, hb'.trans hb, hl'.trans hl⟩, ks ++ ls, ?_, ?_⟩
  · rw [hls, hks, List.append_assoc]
  · intro k hk
    exact (List.mem_append.mp hk).elim (hquiet k) (hquiet' k)

theorem emit {k : Command} (hk : ¬k.isSenders c) (s : State) : LeavesSender c s (emit k s) :=
  ⟨⟨rfl, rfl, rfl, rfl, rfl⟩, [k], rfl, by simpa using hk⟩

theorem sendAck (hc : c.Legal) (s : State) : LeavesSender c s (sendAck c s) := emit (not_isSenders_ack hc _) s

theorem sendNak (hc : c.Legal) (s : State) : LeavesSender c s (sendNak c s) := by
  obtain ⟨⟨ha, hf, hn, hb, hl⟩, hout⟩ := emit (not_isSenders_nak hc (ackValue c s)) s
  exact ⟨⟨ha, hf, hn, hb, hl⟩, hout⟩

theorem decodeErrorArrive (hc : c.Legal) (s : State) : LeavesSender c s (decodeErrorArrive c s) := by
  unfold Machine.decodeErrorArrive
  split
  · exact .sendNak hc s
  · exact .refl s

theorem nakOrDelay (hc : c.Legal) (x : Nat) (s : State) : LeavesSender c s (nakOrDelay c x s) := by
  rcases nakOrDelay_cases c x s with ⟨-, -, h⟩ | ⟨-, h⟩ <;> rw [h]
  · exact .sendNak hc s
  · exact .emit id s

theorem acceptFrame (x : Nat) (p : Packet) (s : State) : LeavesSender c s (acceptFrame c x p s) := by
  rcases acceptFrame_cases c x p s with ⟨-, -, h⟩ | ⟨-, h⟩ <;> rw [h]
  · obtain ⟨fe, tf, ar, nn, st, hd, hdrain⟩ := drainLoop_frame c c.W (bufferFrame c x p s)
    rw [drain, hd]
    refine ⟨⟨rfl, rfl, rfl, rfl, rfl⟩, st, rfl, fun k hk => ?_⟩
    have hk' := hdrain k hk
    cases k with
    | tx _ => cases hk'
    | startTimer _ => cases hk'
    | stopTimer _ => cases hk'
    | _ => exact id
  · exact .refl s

theorem dataArrive (hc : c.Legal) (x : Nat) (p : Packet) (s : State) : LeavesSender c s (dataArrive c x p s) :=
  (nakOrDelay hc x s).trans (acceptFrame x p _)

end LeavesSender

/-- R84: the gate's command delivers nothing. -/
theorem gateCommand_isDeliver (c : Config) (phl halted : Bool) (nbuffered : Nat) :
    (gateCommand c phl halted nbuffered).isDeliver = false := by
  unfold gateCommand
  split <;> rfl

/-- R84: the gate's command is not one of the sender's. -/
theorem gateCommand_not_isSenders (c : Config) (phl halted : Bool) (nbuffered : Nat) :
    ¬(gateCommand c phl halted nbuffered).isSenders c := by
  unfold gateCommand
  split <;> exact id

/-! ### What a received byte string can do to the sender -/

/-- R193: a byte string that is no frame is either of a decode error or malformed. -/
theorem frameReceived_cases_of_not_isFrame {c : Config} {b : Bytes} (h : isFrame c b = false) (s : State) :
    frameReceived c b s = decodeErrorArrive c s ∨ frameReceived c b s = s := by
  unfold isFrame at h
  unfold frameReceived
  cases hb : decodeAndValidate c b with
  | ok f => rw [hb] at h; cases h
  | decodeError e => exact .inl rfl
  | malformed e => exact .inr rfl

/-- The registers that neither a frame nor a byte string that is none writes (R20). -/
structure AdmissionUntouched (s u : State) : Prop where
  nextFrameToSend : u.nextFrameToSend = s.nextFrameToSend
  outBuf : u.outBuf = s.outBuf
  faultReg : u.faultReg = s.faultReg

namespace AdmissionUntouched

variable {s u v : State} (c : Config)

theorem refl (s : State) : AdmissionUntouched s s := ⟨rfl, rfl, rfl⟩

theorem trans (h : AdmissionUntouched s u) (h' : AdmissionUntouched u v) : AdmissionUntouched s v :=
  ⟨h'.1.trans h.1, h'.2.trans h.2, h'.3.trans h.3⟩

theorem retransmit (x : Nat) (s : State) : AdmissionUntouched s (retransmit c x s) := by
  rw [retransmit_eq]; exact ⟨rfl, rfl, rfl⟩

theorem ackRelease (a : Nat) (s : State) : AdmissionUntouched s (ackRelease c a s) := by
  obtain ⟨ae, nb, lg, st, h, -⟩ := ackReleaseLoop_frame c a c.M s
  rw [Machine.ackRelease, h]; exact ⟨rfl, rfl, rfl⟩

theorem decodeErrorArrive (s : State) : AdmissionUntouched s (decodeErrorArrive c s) := by
  unfold Machine.decodeErrorArrive
  split <;> exact ⟨rfl, rfl, rfl⟩

theorem dataArrive (x : Nat) (p : Packet) (s : State) : AdmissionUntouched s (dataArrive c x p s) := by
  obtain ⟨fe, tf, ar, nn, ib, k0, st, h, -⟩ := dataArrive_frame c x p s
  rw [h]; exact ⟨rfl, rfl, rfl⟩

theorem nakRetransmit (a : Nat) (s : State) : AdmissionUntouched s (nakRetransmit c a s) := by
  rcases nakRetransmit_cases c a s with ⟨-, h⟩ | ⟨-, h⟩ <;> rw [h]
  · exact .retransmit c _ s
  · exact .refl s

theorem frameArrive (f : Frame) (s : State) : AdmissionUntouched s (frameArrive c f s) := by
  cases f with
  | data a x p => exact (dataArrive c x p s).trans (ackRelease c a _)
  | ack a => exact ackRelease c a s
  | nak a => exact (ackRelease c a s).trans (nakRetransmit c a _)

theorem frameReceived (b : Bytes) (s : State) : AdmissionUntouched s (frameReceived c b s) := by
  unfold Machine.frameReceived
  cases decodeAndValidate c b with
  | ok f => exact frameArrive c f s
  | decodeError _ => exact decodeErrorArrive c s
  | malformed _ => exact .refl s

end AdmissionUntouched

/-! ### The handlers -/

/-- R52, R53: only a received DATA frame or byte string reaches the receiver. -/
theorem handler_leavesReceiver {i : Instr} (c : Config) (hrx : ∀ h b, i ≠ .frameRx h b)
    (hdata : ∀ h a x p, i ≠ .frameRxData h a x p) (s : State) : LeavesReceiver s (handler c i s) := by
  cases i with
  | netReady _ p => exact .admitPacket c p s
  | frameRx h b => exact absurd rfl (hrx h b)
  | dataTimeout _ => exact .timeoutRetransmit c s
  | ackTimeout _ => exact .emit rfl s
  | frameRxData h a x p => exact absurd rfl (hdata h a x p)
  | frameRxAck _ a => exact .ackRelease c a s
  | frameRxNak _ a => exact (LeavesReceiver.ackRelease c a s).trans (.nakRetransmit c a _)
  | phyReady _ => exact .refl s
  | reservedEvent5 _ _ => exact .refl s
  | reservedEvent6 _ _ => exact .refl s
  | reservedEvent7 _ _ => exact .refl s

/-- R20: admission and the fatal faults belong to NET_READY and DATA_TIMEOUT. -/
theorem handler_admissionUntouched {i : Instr} (c : Config) (hnet : ∀ h p, i ≠ .netReady h p)
    (htimeout : ∀ h, i ≠ .dataTimeout h) (s : State) : AdmissionUntouched s (handler c i s) := by
  cases i with
  | netReady h p => exact absurd rfl (hnet h p)
  | frameRx _ b => exact .frameReceived c b s
  | dataTimeout h => exact absurd rfl (htimeout h)
  | ackTimeout _ => exact ⟨rfl, rfl, rfl⟩
  | frameRxData _ a x p => exact .frameArrive c (.data a x p) s
  | frameRxAck _ a => exact .frameArrive c (.ack a) s
  | frameRxNak _ a => exact .frameArrive c (.nak a) s
  | phyReady _ => exact .refl s
  | reservedEvent5 _ _ => exact .refl s
  | reservedEvent6 _ _ => exact .refl s
  | reservedEvent7 _ _ => exact .refl s

/-- R145: DATA_TIMEOUT keeps the window's edges, the count and the outbound packets. -/
theorem timeoutRetransmit_window (c : Config) (s : State) :
    (timeoutRetransmit c s).ackExpected = s.ackExpected ∧ (timeoutRetransmit c s).nbuffered = s.nbuffered ∧
    (timeoutRetransmit c s).nextFrameToSend = s.nextFrameToSend ∧ (timeoutRetransmit c s).outBuf = s.outBuf := by
  rcases timeoutRetransmit_cases c s with ⟨-, h⟩ | ⟨x, rest, -, h⟩ <;> rw [h]
  · exact ⟨rfl, rfl, rfl, rfl⟩
  · rw [retransmit_eq]; exact ⟨rfl, rfl, rfl, rfl⟩

/-- R141: NET_READY keeps the window's lower edge. -/
theorem admitPacket_ackExpected (c : Config) (p : Packet) (s : State) :
    (admitPacket c p s).ackExpected = s.ackExpected := by
  rcases admitPacket_cases c p s with ⟨-, h⟩ | ⟨-, -, h⟩ | ⟨-, -, h⟩ <;> rw [h]
  · rfl
  · rfl
  · simp [admitEffects, sendData_eq]

end Sys2Proof.Machine
end

section
/-! What an event leaves unchanged: the registers by what its handler does, the collaborators by its delivery. -/

namespace Sys2Proof.Machine

open Sys2Proof
open Sys2Proof.Config (hw)

/-- R20: the registers after an event are those the handler left. -/
theorem exec_keeps {R : State → Prop} {i : Instr} {s t : State} (h : exec i s = .next t)
    (hframe : ∀ (u : State) (ks : List Command) (e : Env), R u → R { u with out := ks, env := e })
    (hbegin : R s) (hhandler : R (handler hw i (beginEvent s))) : R t := by
  rw [exec_eq_next h, coreAfter_eq]
  exact hframe (handled i s) _ _ (handled_of (hframe s [] s.env hbegin) fun _ => hhandler)

/-- R141, R191: only NET_READY moves the window's upper edge and writes an outbound packet. -/
theorem exec_admission {i : Instr} {s t : State} (h : exec i s = .next t) (hnet : ∀ h p, i ≠ .netReady h p) :
    t.nextFrameToSend = s.nextFrameToSend ∧ t.outBuf = s.outBuf := by
  refine exec_keeps (R := fun u => u.nextFrameToSend = s.nextFrameToSend ∧ u.outBuf = s.outBuf) h
    (fun _ _ _ hu => hu) ⟨rfl, rfl⟩ ?_
  by_cases htimeout : ∃ h, i = .dataTimeout h
  · obtain ⟨_, rfl⟩ := htimeout
    obtain ⟨-, -, hnext, hbuf⟩ := timeoutRetransmit_window hw (beginEvent s)
    exact ⟨hnext, hbuf⟩
  · obtain ⟨hnext, hbuf, -⟩ := handler_admissionUntouched hw hnet (not_exists.mp htimeout) (beginEvent s)
    exact ⟨hnext, hbuf⟩

/-- R20, R53: only a received DATA frame or byte string writes a receiver register. -/
theorem exec_sameReceiver {i : Instr} {s t : State} (h : exec i s = .next t) (hrx : ∀ h b, i ≠ .frameRx h b)
    (hdata : ∀ h a x p, i ≠ .frameRxData h a x p) : SameReceiver s t :=
  exec_keeps h (fun _ _ _ hu => ⟨hu.1, hu.2, hu.3, hu.4, hu.5⟩) (.refl s)
    (handler_leavesReceiver hw hrx hdata (beginEvent s)).toSameReceiver.of_beginEvent

/-- R192, R193, R195: a PHY_READY, an ACK_TIMEOUT and a byte string that is no frame leave the sender alone. -/
theorem exec_sameSender {i : Instr} {s t : State} (h : exec i s = .next t)
    (hi : (∃ h, i = .phyReady h) ∨ (∃ h, i = .ackTimeout h) ∨ ∃ h b, i = .frameRx h b ∧ isFrame hw b = false) :
    SameSender s t := by
  refine exec_keeps h (fun _ _ _ hu => ⟨hu.1, hu.2, hu.3, hu.4, hu.5⟩) (.refl s) (SameSender.of_beginEvent ?_)
  rcases hi with ⟨_, rfl⟩ | ⟨_, rfl⟩ | ⟨_, b, rfl, hb⟩
  · exact .refl _
  · exact (LeavesSender.sendAck Config.hw_legal _).toSameSender
  · rcases frameReceived_cases_of_not_isFrame hb (beginEvent s) with hf | hf <;> simp only [handler, hf]
    · exact (LeavesSender.decodeErrorArrive Config.hw_legal _).toSameSender
    · exact .refl _

/-- R61: the collaborators perform the commands of the event. -/
theorem exec_env {i : Instr} {s t : State} (h : exec i s = .next t) : t.env = envAfter i t.out s.env := by
  rw [exec_eq_next h]

/-- R223: no delivery puts a frame on the wire or takes one from those waiting. -/
theorem eventDelivery_frames (i : Instr) (e : Env) :
    (eventDelivery i e).onWire = e.onWire ∧ (eventDelivery i e).accepted = e.accepted := by
  cases i <;> exact ⟨rfl, rfl⟩

/-- R224: only a NET_READY takes the packet that waits. -/
theorem eventDelivery_netWaiting {i : Instr} (hnet : ∀ h p, i ≠ .netReady h p) (e : Env) :
    (eventDelivery i e).netWaiting = e.netWaiting := by
  cases i with
  | netReady h p => exact absurd rfl (hnet h p)
  | _ => rfl

end Sys2Proof.Machine
end

section
/-! The state after reset (R41). -/

namespace Sys2Proof.Machine

open Sys2Proof

/-- R24, R28: a packet buffer has W slots at reset. -/
theorem powerUpBuf_length (c : Config) (buf : Buf) : (powerUpBuf c buf).length = c.W := by simp [powerUpBuf]

/-- R24, R28: every slot of a packet buffer holds PKT_LEN bytes at reset. -/
theorem powerUpBuf_packets (c : Config) (buf : Buf) : ∀ p ∈ powerUpBuf c buf, p.length = c.pktLen := by
  simp [powerUpBuf]

theorem armed_reset (c : Config) (i : Nat) : (Env.reset c).armed i = false := by
  simp [Env.armed, Env.reset, List.getD_eq_getElem?_getD, List.getElem?_replicate]
  split <;> rfl

/-- R36 to R39, R41: the state after reset meets the invariants, for every legal build. -/
theorem resetOf_inv {c : Config} (hc : c.Legal) : (State.resetOf c).Inv c where
  ackExpected_lt := hc.M_pos
  nextFrameToSend_lt := hc.M_pos
  nbuffered_le := Nat.zero_le _
  frameExpected_lt := hc.M_pos
  tooFar_lt := by have h1 := hc.M_eq; have h2 := hc.W_pos; simp only [State.resetOf]; omega
  outBuf_length := powerUpBuf_length c .outBuf
  outBuf_packets := powerUpBuf_packets c .outBuf
  inBuf_length := powerUpBuf_length c .inBuf
  inBuf_packets := powerUpBuf_packets c .inBuf
  arrived_length := List.length_replicate
  ledger_lt := by simp [State.resetOf]
  ledger_nodup := List.nodup_nil
  ledger_length_le := Nat.zero_le _
  halted_iff := by simp [State.resetOf]
  timers_length := List.length_replicate
  sender := by simp [State.resetOf, dist]
  receiver := by
    have h1 := hc.M_eq
    have h2 := hc.W_pos
    simp only [State.resetOf, Nat.zero_add]
    exact (Nat.mod_eq_of_lt (by omega)).symm
  ledger_mem := by simp [State.resetOf, inWindow]
  ledger_length := rfl
  expected_not_arrived := by
    simp [arrivedBit, State.resetOf, slot, List.getD_eq_getElem?_getD, hc.W_pos]
  armed_inflight := fun i h => by rw [State.resetOf, armed_reset] at h; cases h
  resumed_room := fun h => by cases h
  not_stuck := rfl

end Sys2Proof.Machine
end

section
/-! The obligations on reset, on what the events leave unchanged and on the collaborators' own state. -/

open Sys2Proof Sys2Proof.Machine
open Sys2Proof.Config (hw)

/-- Settles O37: each clause holds of the handler, operation by operation. -/
theorem onlyTheNamedEventsWriteARegister : Obligations.OnlyTheNamedEventsWriteARegister := by
  intro i s t h
  refine ⟨exec_admission h, exec_sameReceiver h, exec_sameSender h, fun hi => ?_, ?_, fun hnet htimeout => ?_, ?_⟩
  · refine exec_keeps (R := fun u => u.ackExpected = s.ackExpected) h (fun _ _ _ hu => hu) rfl ?_
    rcases hi with ⟨_, p, rfl⟩ | ⟨_, rfl⟩
    · exact admitPacket_ackExpected hw p (beginEvent s)
    · exact (timeoutRetransmit_window hw (beginEvent s)).1
  · rintro ⟨_, rfl⟩
    obtain ⟨-, hcount, -⟩ := timeoutRetransmit_window hw (beginEvent s)
    exact exec_keeps (R := fun u => u.nbuffered = s.nbuffered) h (fun _ _ _ hu => hu) rfl hcount
  · exact exec_keeps (R := fun u => u.faultReg = s.faultReg) h (fun _ _ _ hu => hu) rfl
      (handler_admissionUntouched hw hnet htimeout (beginEvent s)).faultReg
  · rw [exec_eq_next h]
    exact coreAfter_inbox i s

/-- Settles O38: stations whose cores agree are one station with other surroundings once the event has emptied the output list,
and what stands around the core makes no difference to an event. -/
theorem coreIgnoresItsCollaborators : Obligations.CoreIgnoresItsCollaborators := by
  intro i s s' t t' hcore h h'
  have hbegin : beginEvent s' = (beginEvent s).around s'.inbox s'.env := by
    obtain ⟨⟨ha, hf, hn, hb, hl⟩, ⟨hfe, ht, har, hib, hnn⟩, hfault⟩ := hcore
    simp only [beginEvent, State.around, ha, hf, hn, hb, hl, hfe, ht, har, hib, hnn, hfault]
  have hafter : coreAfter i s' = (coreAfter i s).around s'.inbox s'.env := by
    rw [← coreAfter_around]
    simp only [coreAfter, coreEvent, hbegin]
    rfl
  rw [exec_eq_next h, exec_eq_next h', hafter]
  exact ⟨⟨⟨rfl, rfl, rfl, rfl, rfl⟩, ⟨rfl, rfl, rfl, rfl, rfl⟩, rfl⟩, rfl⟩

/-- Settles O51: a TX adds its frame to those waiting, and what the physical layer does on its own moves some of them to the
wire. -/
theorem acceptedFramesWaitOrAreOnTheWire : Obligations.AcceptedFramesWaitOrAreOnTheWire := by
  intro i s t h
  obtain ⟨hwire, hwait⟩ := eventDelivery_frames i s.env
  rw [exec_env h, envAfter]
  have hown := own_perform t.out ((eventDelivery i s.env).sampled i.header.phl)
  have hacc := accepted_perform t.out ((eventDelivery i s.env).sampled i.header.phl)
  simp only [elapse_fields, hown, hacc, sampled_fields, hwire, hwait]
  refine ⟨⟨_, rfl⟩, ?_⟩
  rw [List.append_assoc, List.append_assoc]
  exact (picked_perm _ _).append_left _

/-- Settles O52: neither the delivery nor the commands take the packet, and what the network layer does on its own only adds
one. -/
theorem waitingPacketStaysUntilHandedOver : Obligations.WaitingPacketStaysUntilHandedOver := by
  intro i s t hwaiting hnet h
  have hown := own_perform t.out ((eventDelivery i s.env).sampled i.header.phl)
  rw [exec_env h, envAfter]
  simp only [elapse_fields, hown, sampled_fields, eventDelivery_netWaiting hnet, hwaiting, Bool.true_or]

/-- Settles O15: the registers by evaluation, the buffers by their shape. -/
theorem resetValues : Obligations.ResetValues := by
  refine ⟨rfl, rfl, rfl, rfl, rfl, rfl, rfl, rfl, rfl, rfl, ?_, ?_, ?_, ?_⟩
  · exact powerUpBuf_length hw .outBuf
  · exact powerUpBuf_packets hw .outBuf
  · exact powerUpBuf_length hw .inBuf
  · exact powerUpBuf_packets hw .inBuf

/-- Settles O17: nothing is in flight, so that the clauses on the ledger and the timers are about empty lists. -/
theorem resetMeetsTheInvariants : Obligations.ResetMeetsTheInvariants := resetOf_inv Config.hw_legal

/-- Settles O18, for each value of FAULT. -/
theorem faultRegisterLayout : Obligations.FaultRegisterLayout := by
  rintro ⟨_ | _, _ | _ | _ | _⟩ <;> decide

/-- Settles O10: the branches of `step` other than an event's. -/
theorem stepWithoutAnEvent : Obligations.StepWithoutAnEvent := by
  refine ⟨fun s hstuck hin => ?_, fun s ev rest e hstuck hin hdec => ?_, fun s ev rest i hstuck hin hdec hwf => ?_,
    fun s hstuck => ?_⟩
  · simp [step, hstuck, hin, idle]
  · simp [step, hstuck, hin, hdec]
  · simp [step_of_decode_ok hstuck hin hdec, hwf]
  · simp [step, hstuck]

end

section
/-! What an event does to the timers that the ledger stands for (R221), command by command. -/

namespace Sys2Proof.Machine

open Sys2Proof

/-- The retransmission timers fit the ledger `l`: one per slot, every armed one that of a recorded frame, none started twice
(R221). -/
structure TimersFit (c : Config) (l : List Nat) (e : Env) : Prop where
  timers_length : e.timers.length = c.W
  armed_inflight : ∀ i, e.armed i = true → ∃ x ∈ l, slot c x = i
  not_stuck : e.doubleStart = false

namespace TimersFit

variable {c : Config} {l l' : List Nat} {e e' : Env}

/-- Only the timers and the mark of a double start count. -/
theorem congr (h : TimersFit c l e) (htimers : e'.timers = e.timers) (hstuck : e'.doubleStart = e.doubleStart) :
    TimersFit c l e' := by
  obtain ⟨hlen, harmed, hns⟩ := h
  refine ⟨htimers ▸ hlen, fun i hi => harmed i ?_, hstuck.trans hns⟩
  rwa [Env.armed, htimers] at hi

/-- R84: a command that is not one of the two for retransmission timers leaves them alone. -/
theorem performOne {k : Command} (h : TimersFit c l e) (hk : ¬k.isSenders c) : TimersFit c l (e.performOne k) := by
  cases k with
  | startTimer _ => exact absurd trivial hk
  | stopTimer _ => exact absurd trivial hk
  | _ => exact h.congr rfl rfl

theorem perform {ks : List Command} (h : TimersFit c l e) (hks : ∀ k ∈ ks, ¬k.isSenders c) : TimersFit c l (e.perform ks) := by
  induction ks generalizing e with
  | nil => exact h
  | cons k ks ih =>
    obtain ⟨hk, hrest⟩ := List.forall_mem_cons.mp hks
    exact ih (h.performOne hk) hrest

/-- R221: with its timer stopped, a frame can leave the ledger. -/
theorem stopTimer {i : Nat} (h : TimersFit c l e) (hl : ∀ x ∈ l, slot c x ≠ i → x ∈ l') :
    TimersFit c l' (e.stopTimer i) := by
  refine ⟨by simp [h.timers_length], fun j hj => ?_, h.not_stuck⟩
  simp only [armed_stopTimer, Bool.and_eq_true, Bool.not_eq_true', decide_eq_false_iff_not] at hj
  obtain ⟨x, hx, rfl⟩ := h.armed_inflight j hj.1
  exact ⟨x, hl x hx fun hxi => hj.2 hxi.symm, rfl⟩

/-- R221: an idle timer is started for a frame that enters the ledger. -/
theorem startTimer {x : Nat} (h : TimersFit c l e) (hidle : e.armed (slot c x) = false) :
    TimersFit c (l ++ [x]) (e.startTimer (slot c x)) := by
  refine ⟨by simp [startTimer_idle hidle, h.timers_length], fun j hj => ?_, ?_⟩
  · rcases armed_startTimer_idle hidle j hj with rfl | hj'
    · exact ⟨x, by simp, rfl⟩
    · obtain ⟨y, hy, rfl⟩ := h.armed_inflight j hj'
      exact ⟨y, List.mem_append_left _ hy, rfl⟩
  · rw [startTimer_idle hidle]; exact h.not_stuck

/-- R140: the commands with which a DATA frame is sent. -/
theorem send {x : Nat} (h : TimersFit c l e) (hidle : e.armed (slot c x) = false) (b : Bytes) :
    TimersFit c (l ++ [x]) (e.perform [.tx b, .startTimer (slot c x), .stopAckTimer]) :=
  (startTimer (e := e.performOne (.tx b)) (h.congr rfl rfl) hidle).congr rfl rfl

/-- R221: no timer is started or stopped between events but by the delivery of its expiry. -/
theorem elapse (h : TimersFit c l e) : TimersFit c l (e.elapse c) := h.congr rfl rfl

/-- R221, R222, R224: no delivery of an event arms a timer. -/
theorem eventDelivery (h : TimersFit c l e) (i : Instr) : TimersFit c l (eventDelivery i e) := by
  cases i with
  | dataTimeout hd => exact h.stopTimer fun x hx _ => hx
  | _ => exact h.congr rfl rfl

end TimersFit

end Sys2Proof.Machine
end

section
/-! The invariants of the sender, of the receiver and of the timers apart, kept by every operation of a handler (R36 to R39,
R221). -/

namespace Sys2Proof.Machine

open Sys2Proof

/-- R36, R38: the invariants that the sender's registers and the ledger are in. -/
structure SenderInv (c : Config) (s : State) : Prop where
  ackExpected_lt : s.ackExpected < c.M
  nextFrameToSend_lt : s.nextFrameToSend < c.M
  nbuffered_le : s.nbuffered ≤ c.W
  outBuf_length : s.outBuf.length = c.W
  outBuf_packets : ∀ p ∈ s.outBuf, p.length = c.pktLen
  ledger_nodup : s.ledger.Nodup
  sender : s.nbuffered = dist c s.ackExpected s.nextFrameToSend
  ledger_mem : ∀ x, x ∈ s.ledger ↔ x < c.M ∧ inWindow s.ackExpected x s.nextFrameToSend = true
  ledger_length : s.ledger.length = s.nbuffered

/-- R37, R39: the invariants that the receiver's registers are in. -/
structure ReceiverInv (c : Config) (s : State) : Prop where
  frameExpected_lt : s.frameExpected < c.M
  tooFar_lt : s.tooFar < c.M
  inBuf_length : s.inBuf.length = c.W
  inBuf_packets : ∀ p ∈ s.inBuf, p.length = c.pktLen
  arrived_length : s.arrived.length = c.W
  receiver : s.tooFar = (s.frameExpected + c.W) % c.M
  expected_not_arrived : arrivedBit (slot c s.frameExpected) s = false

/-- The invariants of a station are those of its sender, its receiver, FAULT, the timers and the gate. -/
theorem inv_iff {c : Config} {s : State} :
    s.Inv c ↔ SenderInv c s ∧ ReceiverInv c s ∧ (s.faultReg.halted = true ↔ s.faultReg.cause ≠ .none) ∧
      TimersFit c s.ledger s.env ∧ (s.env.netResumed = true → s.running ∧ s.nbuffered < c.W) := by
  constructor
  · exact fun h => ⟨{ h with }, { h with }, h.halted_iff, { h with }, h.resumed_room⟩
  · rintro ⟨hsend, hrecv, hfault, htimers, hgate⟩
    exact { hsend, hrecv, htimers with
      ledger_lt := fun x hx => ((hsend.ledger_mem x).mp hx).1
      ledger_length_le := hsend.ledger_length.trans_le hsend.nbuffered_le
      halted_iff := hfault
      resumed_room := hgate }

/-! ### The arithmetic of the window -/

/-- R38: a full window aside, the next number to send is not in flight, and its slot is that of no number in flight. -/
theorem slot_ne_of_inWindow {c : Config} (hc : c.Legal) {ae nf x : Nat} (hae : ae < c.M) (hnf : nf < c.M)
    (hx : x < c.M) (hroom : dist c ae nf < c.W) (hw : inWindow ae x nf = true) : slot c x ≠ slot c nf := by
  have hM := hc.M_eq
  rw [dist_eq hae hnf] at hroom
  rw [inWindow_iff] at hw
  rw [slot_eq hc hx, slot_eq hc hnf]
  split_ifs at hroom ⊢ <;> omega

/-- R36: one more frame in flight. -/
theorem dist_inc_right {c : Config} (hc : c.Legal) {ae nf : Nat} (hae : ae < c.M) (hnf : nf < c.M)
    (hroom : dist c ae nf < c.W) : dist c ae (inc c nf) = dist c ae nf + 1 := by
  have hM := hc.M_eq
  rw [dist_eq hae hnf] at hroom ⊢
  rw [dist_eq hae (inc_lt hc nf), inc_eq hnf]
  split_ifs at hroom ⊢ <;> omega

/-- R38: the window grows by the number just sent. -/
theorem inWindow_inc_right {c : Config} (hc : c.Legal) {ae nf x : Nat} (hae : ae < c.M) (hnf : nf < c.M)
    (hx : x < c.M) (hroom : dist c ae nf < c.W) :
    inWindow ae x (inc c nf) = true ↔ inWindow ae x nf = true ∨ x = nf := by
  have hM := hc.M_eq
  rw [dist_eq hae hnf] at hroom
  rw [inWindow_iff, inWindow_iff, inc_eq hnf]
  split_ifs at hroom ⊢ <;> omega

/-- R38: the window shrinks by its oldest number. -/
theorem inWindow_inc_left {c : Config} {ae nf x : Nat} (hae : ae < c.M) (hnf : nf < c.M) (hx : x < c.M)
    (hne : ae ≠ nf) : inWindow (inc c ae) x nf = true ↔ inWindow ae x nf = true ∧ x ≠ ae := by
  rw [inWindow_iff, inWindow_iff, inc_eq hae]
  split_ifs <;> omega

/-- R101: a window with a member is not empty, and its lower edge is its first member. -/
theorem ne_of_inWindow {l x h : Nat} (hw : inWindow l x h = true) : l ≠ h ∧ inWindow l l h = true := by
  rw [inWindow_iff] at hw ⊢
  omega

/-! ### The sender -/

namespace SenderInv

variable {c : Config} {s u : State}

theorem congr (h : SenderInv c s) (hu : SameSender s u) : SenderInv c u := by
  obtain ⟨ha, hf, hn, hb, hl⟩ := hu
  constructor <;> simp only [ha, hf, hn, hb, hl]
  · exact h.ackExpected_lt
  · exact h.nextFrameToSend_lt
  · exact h.nbuffered_le
  · exact h.outBuf_length
  · exact h.outBuf_packets
  · exact h.ledger_nodup
  · exact h.sender
  · exact h.ledger_mem
  · exact h.ledger_length

/-- R141: an admission into a window with room. -/
theorem admitEffects (hc : c.Legal) (h : SenderInv c s) {p : Packet} (hp : p.length = c.pktLen)
    (hroom : s.nbuffered ≠ c.W) (hfresh : s.nextFrameToSend ∉ s.ledger) : SenderInv c (admitEffects c p s) := by
  have hlt : s.nbuffered < c.W := Nat.lt_of_le_of_ne h.nbuffered_le hroom
  have hdist : dist c s.ackExpected s.nextFrameToSend < c.W := h.sender ▸ hlt
  rw [admitEffects_eq c p s (h.outBuf_length ▸ slot_lt hc _)]
  exact { h with
    nextFrameToSend_lt := inc_lt hc _
    nbuffered_le := hlt
    outBuf_length := List.length_set.trans h.outBuf_length
    outBuf_packets := fun q hq => (List.mem_or_eq_of_mem_set hq).elim (h.outBuf_packets q) fun e => e ▸ hp
    ledger_nodup := List.nodup_append.mpr ⟨h.ledger_nodup, List.nodup_singleton _, fun x hx y hy e =>
      hfresh (List.mem_singleton.mp hy ▸ e ▸ hx)⟩
    sender := (congrArg (· + 1) h.sender).trans (dist_inc_right hc h.ackExpected_lt h.nextFrameToSend_lt hdist).symm
    ledger_mem := fun x => by
      simp only [List.mem_append, List.mem_singleton, h.ledger_mem x]
      constructor
      · rintro (⟨hx, hw⟩ | rfl)
        · exact ⟨hx, (inWindow_inc_right hc h.ackExpected_lt h.nextFrameToSend_lt hx hdist).mpr (.inl hw)⟩
        · exact ⟨h.nextFrameToSend_lt,
            (inWindow_inc_right hc h.ackExpected_lt h.nextFrameToSend_lt h.nextFrameToSend_lt hdist).mpr (.inr rfl)⟩
      · rintro ⟨hx, hw⟩
        exact ((inWindow_inc_right hc h.ackExpected_lt h.nextFrameToSend_lt hx hdist).mp hw).imp (⟨hx, ·⟩) id
    ledger_length := by simp [← h.ledger_length] }

/-- R144: a retransmission moves its frame to the ledger's tail. -/
theorem retransmit (h : SenderInv c s) {x : Nat} (hx : x ∈ s.ledger) : SenderInv c (retransmit c x s) := by
  have hperm : (s.ledger.erase x ++ [x]).Perm s.ledger :=
    List.perm_append_comm.trans (List.perm_cons_erase hx).symm
  rw [retransmit_eq]
  exact { h with
    ledger_nodup := hperm.nodup_iff.mpr h.ledger_nodup
    ledger_mem := fun y => hperm.mem_iff.trans (h.ledger_mem y)
    ledger_length := hperm.length_eq.trans h.ledger_length }

/-- R24: every slot of `out_buf` holds a packet. -/
theorem memRead_length (hc : c.Legal) (h : SenderInv c s) (x : Nat) :
    (memRead .outBuf (slot c x) s).length = c.pktLen := by
  have hlt : slot c x < s.outBuf.length := h.outBuf_length ▸ slot_lt hc x
  refine h.outBuf_packets _ ?_
  simp [memRead, List.getD_eq_getElem?_getD, List.getElem?_eq_getElem hlt]

/-- R38: the lower edge of a window that is not empty is in flight. -/
theorem ackExpected_mem (h : SenderInv c s) {a : Nat} (hw : inWindow s.ackExpected a s.nextFrameToSend = true) :
    s.ackExpected ∈ s.ledger := (h.ledger_mem _).mpr ⟨h.ackExpected_lt, (ne_of_inWindow hw).2⟩

/-- R142: one round of a release takes the oldest frame in flight out. -/
theorem releaseOne (hc : c.Legal) (h : SenderInv c s) {a : Nat}
    (hw : inWindow s.ackExpected a s.nextFrameToSend = true) : SenderInv c (releaseOne c s) := by
  have hne := (ne_of_inWindow hw).1
  have hdist := dist_inc h.ackExpected_lt h.nextFrameToSend_lt hne.symm
  have hmem {x : Nat} (hx : x < c.M) := inWindow_inc_left h.ackExpected_lt h.nextFrameToSend_lt hx hne
  rw [releaseOne_eq]
  exact { h with
    ackExpected_lt := inc_lt hc _
    nbuffered_le := (Nat.sub_le _ _).trans h.nbuffered_le
    ledger_nodup := h.ledger_nodup.erase _
    sender := by have hs := h.sender; simp only; omega
    ledger_mem := fun x => by
      simp only [h.ledger_nodup.mem_erase_iff, h.ledger_mem x]
      exact ⟨fun ⟨hxne, hx, hin⟩ => ⟨hx, (hmem hx).mpr ⟨hin, hxne⟩⟩,
        fun ⟨hx, hin⟩ => ⟨((hmem hx).mp hin).2, hx, ((hmem hx).mp hin).1⟩⟩
    ledger_length := (List.length_erase_of_mem (h.ackExpected_mem hw)).trans (congrArg (· - 1) h.ledger_length) }

end SenderInv

/-! ### The receiver -/

namespace ReceiverInv

variable {c : Config} {s u : State}

theorem congr (h : ReceiverInv c s) (hf : u.frameExpected = s.frameExpected) (ht : u.tooFar = s.tooFar)
    (ha : u.arrived = s.arrived) (hb : u.inBuf = s.inBuf) : ReceiverInv c u := by
  constructor <;> simp only [hf, ht, ha, hb, arrivedBit]
  · exact h.frameExpected_lt
  · exact h.tooFar_lt
  · exact h.inBuf_length
  · exact h.inBuf_packets
  · exact h.arrived_length
  · exact h.receiver
  · exact h.expected_not_arrived

theorem of_sameReceiver (h : ReceiverInv c s) (hu : SameReceiver s u) : ReceiverInv c u :=
  h.congr hu.frameExpected hu.tooFar hu.arrived hu.inBuf

/-- R161, R162: a frame of the window is buffered, and the drain that follows leaves the expected slot free. -/
theorem drain_bufferFrame (hc : c.Legal) (h : ReceiverInv c s) (x : Nat) {p : Packet} (hp : p.length = c.pktLen) :
    ReceiverInv c (drain c (bufferFrame c x p s)) := by
  obtain ⟨k, hk⟩ := exists_drainRounds (c := c) c.W (bufferFrame c x p s)
  obtain ⟨hle, -, hfree⟩ := id hk
  rw [drain_eq hc (s := bufferFrame c x p s) h.frameExpected_lt h.tooFar_lt hk]
  exact {
    frameExpected_lt := seqPlus_lt hc _ _
    tooFar_lt := seqPlus_lt hc _ _
    inBuf_length := List.length_set.trans h.inBuf_length
    inBuf_packets := fun q hq => (List.mem_or_eq_of_mem_set hq).elim (h.inBuf_packets q) fun e => e ▸ hp
    arrived_length := (clearRun_length _ _ _).trans (List.length_set.trans h.arrived_length)
    receiver := by
      have ht := h.receiver
      simp only [drainMany, bufferFrame_eq, seqPlus, ht, Nat.mod_add_mod]
      congr 1; omega
    expected_not_arrived := by
      simp only [drainMany, arrivedBit, clearRun_getD, Bool.and_eq_false_iff, Bool.not_eq_false', decide_eq_true_eq]
      rcases Nat.lt_or_ge k c.W with hlt | hge
      · exact .inl (hfree hlt)
      · refine .inr ⟨0, Nat.lt_of_lt_of_le hc.W_pos hge, ?_⟩
        rw [Nat.le_antisymm hle hge]
        simp only [slot, seqPlus, hc.M_eq, Nat.mod_mul_left_mod, Nat.add_mod_right, Nat.add_zero] }

/-- R160: the first part of a DATA frame's arrival writes no register but `no_nak`. -/
theorem nakOrDelay (h : ReceiverInv c s) (x : Nat) : ReceiverInv c (nakOrDelay c x s) := by
  rcases nakOrDelay_cases c x s with ⟨-, -, e⟩ | ⟨-, e⟩ <;> rw [e] <;> exact h.congr rfl rfl rfl rfl

/-- R160 to R163: a received DATA frame. -/
theorem dataArrive (hc : c.Legal) (h : ReceiverInv c s) (x : Nat) {p : Packet} (hp : p.length = c.pktLen) :
    ReceiverInv c (dataArrive c x p s) := by
  have hfirst := h.nakOrDelay x
  unfold Machine.dataArrive
  rcases acceptFrame_cases c x p (Machine.nakOrDelay c x s) with ⟨-, -, e⟩ | ⟨-, e⟩ <;> rw [e]
  · exact hfirst.drain_bufferFrame hc x hp
  · exact hfirst

theorem decodeErrorArrive (h : ReceiverInv c s) : ReceiverInv c (decodeErrorArrive c s) := by
  unfold Machine.decodeErrorArrive
  split
  · exact h.congr rfl rfl rfl rfl
  · exact h

end ReceiverInv

end Sys2Proof.Machine
end

section
/-! Every event keeps the invariants: the handlers operation by operation, then the gate and what the collaborators do on their
own. -/

namespace Sys2Proof.Machine

open Sys2Proof
open Sys2Proof.Config (hw)

/-- What every round of a release keeps, the release keeps (R142). -/
theorem ackRelease_induction {c : Config} {R : State → Prop} {a : Nat} {s : State} (hs : R s)
    (hround : ∀ u, R u → inWindow u.ackExpected a u.nextFrameToSend = true → R (releaseOne c u)) :
    R (ackRelease c a s) := by
  have hloop : ∀ (fuel : Nat) (u : State), R u → R (ackReleaseLoop c a fuel u) := by
    intro fuel
    induction fuel with
    | zero => exact fun _ hu => hu
    | succ k ih =>
      intro u hu
      unfold ackReleaseLoop
      split
      next hw => exact ih _ (hround u hu hw)
      next => exact hu
  exact hloop c.M s hs

/-- The sender and its timers in the course of an event that began with the collaborators `e`: the commands emitted so far have
been performed (R61). -/
structure SenderSoFar (c : Config) (e : Env) (s : State) : Prop where
  sender : SenderInv c s
  timers : TimersFit c s.ledger (e.perform s.out)

namespace SenderSoFar

variable {c : Config} {e : Env} {s u : State}

theorem of_leavesSender (h : SenderSoFar c e s) (hu : LeavesSender c s u) : SenderSoFar c e u := by
  obtain ⟨hsame, ks, hks, hquiet⟩ := hu
  refine ⟨h.sender.congr hsame, ?_⟩
  rw [hsame.ledger, hks, perform_append]
  exact h.timers.perform hquiet

/-- R141: the slot of the frame admitted has no armed timer, since it is that of no frame in flight. -/
theorem admitEffects (hc : c.Legal) (h : SenderSoFar c e s) {p : Packet} (hp : p.length = c.pktLen)
    (hroom : s.nbuffered ≠ c.W) (hfresh : s.nextFrameToSend ∉ s.ledger) : SenderSoFar c e (admitEffects c p s) := by
  obtain ⟨hs, ht⟩ := h
  refine ⟨hs.admitEffects hc hp hroom hfresh, ?_⟩
  have hdist : dist c s.ackExpected s.nextFrameToSend < c.W :=
    hs.sender ▸ Nat.lt_of_le_of_ne hs.nbuffered_le hroom
  have hidle : (e.perform s.out).armed (slot c s.nextFrameToSend) = false := by
    refine Bool.eq_false_iff.mpr fun harmed => ?_
    obtain ⟨x, hx, hslot⟩ := ht.armed_inflight _ harmed
    obtain ⟨hlt, hin⟩ := (hs.ledger_mem x).mp hx
    exact slot_ne_of_inWindow hc hs.ackExpected_lt hs.nextFrameToSend_lt hlt hdist hin hslot
  rw [admitEffects_eq c p s (hs.outBuf_length ▸ slot_lt hc _), perform_append]
  exact ht.send hidle _

/-- R144: the timer is stopped before it is started again. -/
theorem retransmit (h : SenderSoFar c e s) {x : Nat} (hx : x ∈ s.ledger) : SenderSoFar c e (retransmit c x s) := by
  obtain ⟨hs, ht⟩ := h
  refine ⟨hs.retransmit hx, ?_⟩
  have hstopped : TimersFit c (s.ledger.erase x) ((e.perform s.out).stopTimer (slot c x)) :=
    ht.stopTimer fun y hy hslot => (List.mem_erase_of_ne fun hyx => hslot (congrArg (slot c) hyx)).mpr hy
  have hidle : ((e.perform s.out).stopTimer (slot c x)).armed (slot c x) = false := by simp [armed_stopTimer]
  rw [retransmit_eq, perform_append]
  exact hstopped.send hidle _

/-- R142: the timer of a released frame is stopped. -/
theorem releaseOne (hc : c.Legal) (h : SenderSoFar c e s) {a : Nat}
    (hw : inWindow s.ackExpected a s.nextFrameToSend = true) : SenderSoFar c e (releaseOne c s) := by
  obtain ⟨hs, ht⟩ := h
  refine ⟨hs.releaseOne hc hw, ?_⟩
  rw [releaseOne_eq, perform_append]
  exact ht.stopTimer fun y hy hslot => (List.mem_erase_of_ne fun hya => hslot (congrArg (slot c) hya)).mpr hy

theorem ackRelease (hc : c.Legal) (h : SenderSoFar c e s) (a : Nat) : SenderSoFar c e (ackRelease c a s) :=
  ackRelease_induction h fun _ hu hw => hu.releaseOne hc hw

theorem raiseFault (h : SenderSoFar c e s) (cause : FaultCause) : SenderSoFar c e (raiseFault cause s) :=
  ⟨h.sender.congr ⟨rfl, rfl, rfl, rfl, rfl⟩, h.timers⟩

theorem admitPacket (hc : c.Legal) (h : SenderSoFar c e s) {p : Packet} (hp : p.length = c.pktLen) :
    SenderSoFar c e (admitPacket c p s) := by
  rcases admitPacket_cases c p s with ⟨-, hr⟩ | ⟨-, -, hr⟩ | ⟨hroom, hfresh, hr⟩ <;> rw [hr]
  · exact h.raiseFault _
  · exact h.raiseFault _
  · exact h.admitEffects hc hp hroom hfresh

theorem timeoutRetransmit (h : SenderSoFar c e s) : SenderSoFar c e (timeoutRetransmit c s) := by
  rcases timeoutRetransmit_cases c s with ⟨-, hr⟩ | ⟨x, rest, hledger, hr⟩ <;> rw [hr]
  · exact h.raiseFault _
  · exact h.retransmit (hledger ▸ List.mem_cons_self)

theorem nakRetransmit (hc : c.Legal) (h : SenderSoFar c e s) (a : Nat) : SenderSoFar c e (nakRetransmit c a s) := by
  rcases nakRetransmit_cases c a s with ⟨hw, hr⟩ | ⟨-, hr⟩ <;> rw [hr]
  · exact h.retransmit ((h.sender.ledger_mem _).mpr ⟨inc_lt hc a, hw⟩)
  · exact h

end SenderSoFar

/-! ### The handlers -/

/-- R80: the operand of a well-formed plain FRAME_RX is no frame. -/
theorem not_isFrame_of_wf {c : Config} {h : Header} {b : Bytes} (hwf : (Instr.frameRx h b).wf c = true) :
    isFrame c b = false := by
  simp only [Instr.wf, Bool.and_eq_true, Bool.not_eq_true'] at hwf
  exact hwf.2

/-- R13: the packet of a well-formed NET_READY. -/
theorem netReady_packet_length {c : Config} {h : Header} {p : Packet} (hwf : (Instr.netReady h p).wf c = true) :
    p.length = c.pktLen := by
  simp only [Instr.wf, Bool.and_eq_true, decide_eq_true_eq] at hwf
  exact hwf.2

/-- R13, R78: the fields of a well-formed DATA frame. -/
theorem frameRxData_fields {c : Config} {h : Header} {a x : Nat} {p : Packet}
    (hwf : (Instr.frameRxData h a x p).wf c = true) : a ≤ c.maxSeq ∧ x ≤ c.maxSeq ∧ p.length = c.pktLen := by
  simp only [Instr.wf, Frame.wf, Bool.and_eq_true, decide_eq_true_eq] at hwf
  exact ⟨hwf.2.1.1, hwf.2.1.2, hwf.2.2⟩

theorem frameReceived_of_wf {R : State → Prop} {c : Config} {h : Header} {b : Bytes} {s : State}
    (hwf : (Instr.frameRx h b).wf c = true) (hs : R s) (herror : R (decodeErrorArrive c s)) :
    R (frameReceived c b s) := by
  rcases frameReceived_cases_of_not_isFrame (not_isFrame_of_wf hwf) s with e | e <;> rw [e]
  · exact herror
  · exact hs

theorem handler_senderSoFar {c : Config} (hc : c.Legal) {i : Instr} (hwf : i.wf c = true) {e : Env} {s : State}
    (h : SenderSoFar c e s) : SenderSoFar c e (handler c i s) := by
  cases i with
  | netReady _ p => exact h.admitPacket hc (netReady_packet_length hwf)
  | frameRx _ b => exact frameReceived_of_wf hwf h (h.of_leavesSender (.decodeErrorArrive hc s))
  | dataTimeout _ => exact h.timeoutRetransmit
  | ackTimeout _ => exact h.of_leavesSender (.sendAck hc s)
  | frameRxData _ a x p => exact (h.of_leavesSender (.dataArrive hc x p s)).ackRelease hc a
  | frameRxAck _ a => exact h.ackRelease hc a
  | frameRxNak _ a => exact (h.ackRelease hc a).nakRetransmit hc a
  | phyReady _ => exact h
  | reservedEvent5 _ _ => exact h
  | reservedEvent6 _ _ => exact h
  | reservedEvent7 _ _ => exact h

theorem handler_receiverInv {c : Config} (hc : c.Legal) {i : Instr} (hwf : i.wf c = true) {s : State}
    (h : ReceiverInv c s) : ReceiverInv c (handler c i s) := by
  by_cases hrx : ∃ hd b, i = .frameRx hd b
  · obtain ⟨hd, b, rfl⟩ := hrx
    exact frameReceived_of_wf hwf h h.decodeErrorArrive
  by_cases hdata : ∃ hd a x p, i = .frameRxData hd a x p
  · obtain ⟨hd, a, x, p, rfl⟩ := hdata
    obtain ⟨-, -, hp⟩ := frameRxData_fields hwf
    exact (h.dataArrive hc x hp).of_sameReceiver (LeavesReceiver.ackRelease c a _).toSameReceiver
  · exact h.of_sameReceiver (handler_leavesReceiver c (fun hd b e => hrx ⟨hd, b, e⟩)
      (fun hd a x p e => hdata ⟨hd, a, x, p, e⟩) s).toSameReceiver

/-- R31: FAULT says halted together with a cause. -/
def FaultReg.Agrees (f : FaultReg) : Prop := f.halted = true ↔ f.cause ≠ .none

/-- R214: whatever a handler raises has a cause. -/
theorem handler_faultReg_agrees {c : Config} {i : Instr} {s : State} (h : s.faultReg.Agrees) :
    (handler c i s).faultReg.Agrees := by
  have hraise {cause : FaultCause} (hcause : cause ≠ .none) : FaultReg.Agrees ⟨true, cause⟩ :=
    iff_of_true rfl hcause
  by_cases hnet : ∃ hd p, i = .netReady hd p
  · obtain ⟨hd, p, rfl⟩ := hnet
    rcases admitPacket_cases c p s with ⟨-, e⟩ | ⟨-, -, e⟩ | ⟨-, -, e⟩ <;> rw [handler, e]
    · exact hraise (by decide)
    · exact hraise (by decide)
    · simpa [admitEffects, sendData_eq] using h
  by_cases htimeout : ∃ hd, i = .dataTimeout hd
  · obtain ⟨hd, rfl⟩ := htimeout
    rcases timeoutRetransmit_cases c s with ⟨-, e⟩ | ⟨x, rest, -, e⟩ <;> rw [handler, e]
    · exact hraise (by decide)
    · rw [retransmit_eq]; exact h
  · rw [(handler_admissionUntouched c (fun hd p e => hnet ⟨hd, p, e⟩) (not_exists.mp htimeout) s).faultReg]
    exact h

/-! ### The event -/

/-- R196, R224: after the gate command, admission is resumed only while the station runs and has room. -/
theorem netResumed_gateCommand {phl : Bool} {s : State} {ks : List Command} {e : Env}
    (h : (e.perform (ks ++ [gateCommand hw phl s.faultReg.halted s.nbuffered])).netResumed = true) :
    s.running ∧ s.nbuffered < hw.W := by
  rw [perform_append] at h
  unfold gateCommand at h
  split at h
  next hgate => exact ⟨hgate.1, hgate.2.1⟩
  next => cases h

/-- R190: an event keeps the invariants. -/
theorem exec_inv {i : Instr} {s t : State} (hs : s.Inv hw) (hwf : i.wf hw = true) (h : exec i s = .next t) :
    t.Inv hw := by
  obtain ⟨hsend, hrecv, hfault, htimers, -⟩ := inv_iff.mp hs
  have hbegin : SenderSoFar hw (envBefore i s.env) (beginEvent s) :=
    ⟨hsend.congr ⟨rfl, rfl, rfl, rfl, rfl⟩, (htimers.eventDelivery i).congr rfl rfl⟩
  have hsender := handled_of hbegin fun _ => handler_senderSoFar Config.hw_legal hwf hbegin
  have hreceiver : ReceiverInv hw (handled i s) :=
    handled_of (hrecv.congr rfl rfl rfl rfl) fun _ =>
      handler_receiverInv Config.hw_legal hwf (hrecv.congr rfl rfl rfl rfl)
  have hagrees : (handled i s).faultReg.Agrees :=
    handled_of (R := fun u => u.faultReg.Agrees) hfault fun _ => handler_faultReg_agrees hfault
  rw [exec_eq_next h, coreAfter_eq]
  refine inv_iff.mpr ⟨hsender.sender.congr ⟨rfl, rfl, rfl, rfl, rfl⟩, hreceiver.congr rfl rfl rfl rfl, hagrees, ?_,
    netResumed_gateCommand⟩
  refine TimersFit.elapse ?_
  rw [perform_append]
  exact hsender.timers.performOne (gateCommand_not_isSenders _ _ _ _)

/-! ### The step -/

/-- R12, R59, R60: a step with a next state is a waiting step, or the event that the word at the head stands for. -/
theorem step_eq_next {s t : State} (h : step s = .next t) :
    (s.inbox = [] ∧ t = idle hw s) ∨
    ∃ ev rest i, s.inbox = ev :: rest ∧ decode hw ev = .ok i ∧ i.wf hw = true ∧
      exec i { s with inbox := rest } = .next t := by
  unfold step at h
  split at h
  · cases h
  split at h
  next hin => cases h; exact .inl ⟨hin, rfl⟩
  next ev rest hin =>
    split at h
    · cases h
    next i hdec =>
      split at h
      next hwf => exact .inr ⟨ev, rest, i, hin, hdec, hwf, takeEvent_eq hin ▸ h⟩
      next => cases h

/-- R33, R221 to R224: while the core waits, its collaborators keep the invariants. -/
theorem idle_inv {s : State} (hs : s.Inv hw) : (idle hw s).Inv hw := by
  obtain ⟨hsend, hrecv, hfault, htimers, hgate⟩ := inv_iff.mp hs
  exact inv_iff.mpr ⟨hsend.congr ⟨rfl, rfl, rfl, rfl, rfl⟩, hrecv.congr rfl rfl rfl rfl, hfault,
    htimers.elapse, hgate⟩

end Sys2Proof.Machine

open Sys2Proof.Machine

/-- Settles O46: a step that has a next state waits or runs an event, and both keep the invariants. -/
theorem stepKeepsTheInvariants : Obligations.StepKeepsTheInvariants := by
  intro s t hs h
  rcases step_eq_next h with ⟨-, rfl⟩ | ⟨ev, rest, i, -, -, hwf, hexec⟩
  · exact idle_inv hs
  · exact exec_inv (s := { s with inbox := rest }) { hs with } hwf hexec

end

section
/-! The packets delivered are the peer's, in order and once each (R39, R161, R162). -/

namespace Sys2Proof.Machine

open Sys2Proof
open Sys2Proof.Config (hw)

section Slots

variable {c : Config} (hc : c.Legal)
include hc

/-- R104: a slot is shared by the numbers that are W apart, however far they have been counted. -/
theorem slot_mod (k : Nat) : slot c (k % c.M) = slot c k :=
  Nat.mod_mod_of_dvd k ⟨2, hc.M_eq.trans (Nat.mul_comm _ _)⟩

theorem slot_seqPlus (N j : Nat) : slot c (seqPlus c (N % c.M) j) = slot c (N + j) := by
  rw [seqPlus, Nat.mod_add_mod, slot_mod hc]

omit hc in
/-- R42: of W numbers in a row no two share a slot. -/
theorem slot_add_inj {N i j : Nat} (hi : i < c.W) (hj : j < c.W) (h : slot c (N + i) = slot c (N + j)) : i = j :=
  (Nat.ModEq.add_left_cancel' N h).eq_of_lt_of_lt hi hj

/-- R102: a number is as far from a lower one as its distance says. -/
theorem seqPlus_dist {x y : Nat} (hx : x < c.M) (hy : y < c.M) : seqPlus c x (dist c x y) = y := by
  have hd := dist_eq hx hy
  rw [seqPlus_eq hx (dist_lt hc x y)]
  split_ifs at hd ⊢ <;> omega

/-- R37, R102: the receiver's window holds the numbers less than W above its lower edge. -/
theorem dist_lt_of_inWindow {fe x : Nat} (hf : fe < c.M) (hx : x < c.M)
    (hw : inWindow fe x ((fe + c.W) % c.M) = true) : dist c fe x < c.W := by
  have hM := hc.M_eq
  have hW := hc.W_pos
  rw [tooFar_eq_seqPlus, seqPlus_eq hf (by omega), inWindow_iff] at hw
  rw [dist_eq hf hx]
  split_ifs at hw ⊢ <;> omega

end Slots

theorem DeliveredPrefix.congr {c : Config} {P : Nat → Packet} {N : Nat} {s u : State} (h : DeliveredPrefix c P N s)
    (hf : u.frameExpected = s.frameExpected) (ha : u.arrived = s.arrived) (hb : u.inBuf = s.inBuf)
    (hd : u.env.delivered = s.env.delivered) : DeliveredPrefix c P N u := by
  constructor <;> simp only [hf, hd, arrivedBit, ha, memRead, hb]
  · exact h.expected
  · exact h.delivered
  · exact h.buffered

/-- The receiver's history in the course of an event that began with the collaborators `e`: the commands emitted so far have been
performed (R61). -/
def PrefixSoFar (c : Config) (P : Nat → Packet) (N : Nat) (e : Env) (s : State) : Prop :=
  DeliveredPrefix c P N { s with env := e.perform s.out }

/-- Every number from `N` on, below the window's upper edge, that is marked as arrived has its packet in its slot: the first one
too, which is so between the buffering of a frame and the end of the drain (R161, R162). -/
def WindowBuffered (c : Config) (P : Nat → Packet) (N : Nat) (s : State) : Prop :=
  ∀ j, j < c.W → arrivedBit (slot c (N + j)) s = true → memRead .inBuf (slot c (N + j)) s = P (N + j)

/-- R61: the packets of the commands of a drain. -/
theorem delivered_perform_drain (f : Nat → Packet) (k : Nat) (e : Env) :
    (e.perform ((List.range k).flatMap fun j => [.deliver (f j), .startAckTimer])).delivered =
      e.delivered ++ (List.range k).map f := by
  rw [delivered_perform, List.filterMap_flatMap]
  simp [List.map_eq_flatMap]

namespace PrefixSoFar

variable {c : Config} {P : Nat → Packet} {N : Nat} {e : Env} {s u : State}

theorem of_leavesReceiver (h : PrefixSoFar c P N e s) (hu : LeavesReceiver s u) : PrefixSoFar c P N e u := by
  obtain ⟨hsame, ks, hks, hquiet⟩ := hu
  refine DeliveredPrefix.congr h hsame.frameExpected hsame.arrived hsame.inBuf ?_
  have hnone : (ks.filterMap fun k => match k with
      | .deliver p => some p
      | _ => none) = [] := by
    refine List.filterMap_eq_nil_iff.mpr fun k hk => ?_
    have hk' := hquiet k hk
    cases k with
    | deliver _ => cases hk'
    | _ => rfl
  simp only [hks, perform_append, delivered_perform ks]
  exact (congrArg _ hnone).trans (List.append_nil _)

/-- R165: the register `no_nak` is no part of the history. -/
theorem sendNak (h : PrefixSoFar c P N e s) : PrefixSoFar c P N e (sendNak c s) :=
  of_leavesReceiver (s := setNoNak false s) (DeliveredPrefix.congr h rfl rfl rfl rfl) (.emit rfl _)

theorem decodeErrorArrive (h : PrefixSoFar c P N e s) : PrefixSoFar c P N e (decodeErrorArrive c s) := by
  unfold Machine.decodeErrorArrive
  split
  · exact h.sendNak
  · exact h

theorem nakOrDelay (h : PrefixSoFar c P N e s) (x : Nat) : PrefixSoFar c P N e (nakOrDelay c x s) := by
  rcases nakOrDelay_cases c x s with ⟨-, -, hr⟩ | ⟨-, hr⟩ <;> rw [hr]
  · exact h.sendNak
  · exact h.of_leavesReceiver (.emit rfl _)

/-- R161: the frame of the window that comes is buffered in the slot of its number. -/
theorem windowBuffered (hc : c.Legal) (hr : ReceiverInv c s) (h : PrefixSoFar c P N e s) {x : Nat} (hx : x < c.M)
    (hw : inWindow s.frameExpected x s.tooFar = true) :
    WindowBuffered c P N (bufferFrame c x (P (N + dist c s.frameExpected x)) s) := by
  have hexpected : s.frameExpected = N % c.M := h.expected
  have hfree := hr.expected_not_arrived
  have hd := dist_lt_of_inWindow hc hr.frameExpected_lt hx (hr.receiver ▸ hw)
  have hslot : slot c x = slot c (N + dist c s.frameExpected x) := by
    rw [← slot_seqPlus hc, ← hexpected, seqPlus_dist hc hr.frameExpected_lt hx]
  rw [hexpected, slot_mod hc] at hfree
  intro j hj harrived
  by_cases hjd : j = dist c s.frameExpected x
  · subst hjd
    rw [← hslot]
    exact memRead_memWrite_inBuf (s := setArrived (slot c x) true s) _ (hr.inBuf_length ▸ slot_lt hc x)
  · have hne : slot c x ≠ slot c (N + j) := fun heq => hjd (slot_add_inj hj hd (heq.symm.trans hslot))
    have hwas : arrivedBit (slot c (N + j)) s = true := (arrivedBit_setArrived_ne s true hne).symm.trans harrived
    have hpos : 0 < j := Nat.pos_of_ne_zero fun hj0 => by
      rw [hj0, Nat.add_zero, hfree] at hwas; cases hwas
    exact (memRead_memWrite_inBuf_ne _ _ hne).trans (h.buffered j hpos hj hwas)

/-- R162: a drain of `k` rounds delivers the `k` packets that come next. -/
theorem drainMany (hc : c.Legal) (h : PrefixSoFar c P N e s) (hb : WindowBuffered c P N u) {k : Nat}
    (hf : u.frameExpected = s.frameExpected) (hout : u.out = s.out) (hk : DrainRounds c c.W k u) :
    PrefixSoFar c P (N + k) e (drainMany c k u) := by
  have hexpected : u.frameExpected = N % c.M := hf.trans h.expected
  obtain ⟨hle, hset, -⟩ := hk
  rw [hexpected] at hset
  simp only [slot_seqPlus hc] at hset
  have hpackets : ∀ j ∈ List.range k, memRead .inBuf (slot c (seqPlus c u.frameExpected j)) u = P (N + j) := by
    intro j hj
    have hjk := List.mem_range.mp hj
    rw [hexpected, slot_seqPlus hc]
    exact hb j (Nat.lt_of_lt_of_le hjk hle) (hset j hjk)
  constructor
  · simp only [Machine.drainMany, hexpected, seqPlus, Nat.mod_add_mod]
  · have hbefore : (e.perform s.out).delivered = (List.range N).map P := h.delivered
    simp only [Machine.drainMany, perform_append, delivered_perform_drain, hout, hbefore, List.range_add,
      List.map_append, List.map_map]
    exact congrArg _ (List.map_congr_left hpackets)
  · intro j hj0 hjW harrived
    simp only [Machine.drainMany, arrivedBit, clearRun_getD, hexpected, slot_seqPlus hc, Bool.and_eq_true,
      Bool.not_eq_true', decide_eq_false_iff_not] at harrived
    obtain ⟨hwas, hkept⟩ := harrived
    rw [Nat.add_assoc] at hwas hkept ⊢
    rcases Nat.lt_or_ge (k + j) c.W with hlt | hge
    · exact hb (k + j) hlt hwas
    · refine absurd ⟨k + j - c.W, by omega, ?_⟩ hkept
      rw [show N + (k + j) = N + (k + j - c.W) + c.W by omega, slot, slot, Nat.add_mod_right]

/-- R160 to R163: a received DATA frame that, if it is of the window, carries the peer's packet of its number. -/
theorem dataArrive (hc : c.Legal) (hr : ReceiverInv c s) (h : PrefixSoFar c P N e s) {x : Nat} {p : Packet}
    (hx : x < c.M) (hp : inWindow s.frameExpected x s.tooFar = true → p = P (N + dist c s.frameExpected x)) :
    ∃ k, k ≤ c.W ∧ PrefixSoFar c P (N + k) e (dataArrive c x p s) := by
  have hfirst := h.nakOrDelay x
  have hrfirst := hr.nakOrDelay x
  have hsame : (Machine.nakOrDelay c x s).frameExpected = s.frameExpected ∧
      (Machine.nakOrDelay c x s).tooFar = s.tooFar := by
    rcases nakOrDelay_cases c x s with ⟨-, -, e⟩ | ⟨-, e⟩ <;> rw [e] <;> exact ⟨rfl, rfl⟩
  unfold Machine.dataArrive
  rcases acceptFrame_cases c x p (Machine.nakOrDelay c x s) with ⟨hw, -, e⟩ | ⟨-, e⟩ <;> rw [e]
  · have hb := hfirst.windowBuffered hc hrfirst hx hw
    rw [hsame.1, hsame.2] at hw
    rw [hsame.1, ← hp hw] at hb
    obtain ⟨k, hk⟩ := exists_drainRounds (c := c) c.W (bufferFrame c x p (Machine.nakOrDelay c x s))
    refine ⟨k, hk.1, ?_⟩
    rw [drain_eq hc (s := bufferFrame c x p _) hrfirst.frameExpected_lt hrfirst.tooFar_lt hk]
    exact hfirst.drainMany hc hb rfl rfl hk
  · exact ⟨0, Nat.zero_le _, hfirst⟩

end PrefixSoFar

/-- R161, R162, R193: an event whose DATA frame, if it is one of the window, carries the peer's packet of its number. -/
theorem handler_prefixSoFar {c : Config} (hc : c.Legal) {i : Instr} (hwf : i.wf c = true) {P : Nat → Packet} {N : Nat}
    {e : Env} {s : State} (hr : ReceiverInv c s) (h : PrefixSoFar c P N e s)
    (hp : ∀ h a x p, i = .frameRxData h a x p → inWindow s.frameExpected x s.tooFar = true →
      p = P (N + dist c s.frameExpected x)) :
    ∃ k, k ≤ c.W ∧ PrefixSoFar c P (N + k) e (handler c i s) := by
  by_cases hdata : ∃ hd a x p, i = .frameRxData hd a x p
  · obtain ⟨hd, a, x, p, rfl⟩ := hdata
    obtain ⟨-, hle, -⟩ := frameRxData_fields hwf
    have hx : x < c.M := hc.maxSeq_succ ▸ Nat.lt_succ_of_le hle
    obtain ⟨k, hk, hprefix⟩ := h.dataArrive hc hr hx (hp hd a x p rfl)
    exact ⟨k, hk, hprefix.of_leavesReceiver (.ackRelease c a _)⟩
  · refine ⟨0, Nat.zero_le _, ?_⟩
    by_cases hrx : ∃ hd b, i = .frameRx hd b
    · obtain ⟨hd, b, rfl⟩ := hrx
      exact frameReceived_of_wf hwf h h.decodeErrorArrive
    · exact h.of_leavesReceiver (handler_leavesReceiver c (fun hd b e => hrx ⟨hd, b, e⟩)
        (fun hd a x p e => hdata ⟨hd, a, x, p, e⟩) s)

end Sys2Proof.Machine

open Sys2Proof Sys2Proof.Machine
open Sys2Proof.Config (hw)

/-- Settles O48: a drain delivers the packets buffered from the lower edge on, which are those of their numbers; no other
operation delivers or touches the receiver's window. -/
theorem deliveryIsInOrderAndExactlyOnce : Obligations.DeliveryIsInOrderAndExactlyOnce := by
  intro P N i s t hs hprefix hwf hp h
  obtain ⟨-, hrecv, -⟩ := inv_iff.mp hs
  have hdelivered : (envBefore i s.env).delivered = s.env.delivered := by cases i <;> rfl
  have hbegin : PrefixSoFar hw P N (envBefore i s.env) (beginEvent s) := hprefix.congr rfl rfl rfl hdelivered
  obtain ⟨k, hk, hhandled⟩ : ∃ k, k ≤ hw.W ∧ PrefixSoFar hw P (N + k) (envBefore i s.env) (handled i s) :=
    handled_of (R := fun u => ∃ k, k ≤ hw.W ∧ PrefixSoFar hw P (N + k) (envBefore i s.env) u) ⟨0, Nat.zero_le _, hbegin⟩
      fun _ => handler_prefixSoFar Config.hw_legal hwf (hrecv.congr rfl rfl rfl rfl) hbegin hp
  have hcore : PrefixSoFar hw P (N + k) (envBefore i s.env) (coreAfter i s) := by
    rw [coreAfter_eq]
    exact hhandled.of_leavesReceiver (.emit (gateCommand_isDeliver _ _ _ _) _)
  refine ⟨k, hk, ?_⟩
  rw [exec_eq_next h]
  exact DeliveredPrefix.congr hcore rfl rfl rfl rfl

end

section
/-! The DATA frames sent carry the packets admitted under their numbers (R39, R140 to R145). -/

namespace Sys2Proof.Machine

open Sys2Proof
open Sys2Proof.Config (hw)

/-- R131: a frame in range survives its encoding. -/
theorem decodeAndValidate_encodeFrame {c : Config} (hc : c.Legal) {f : Frame} (hf : f.wf c = true) :
    decodeAndValidate c (encodeFrame c f) = .ok f := by
  have htake : (encodeFrame c f).take ((encodeFrame c f).length - 4) = frameBody c f := by
    rw [encodeFrame_length, Nat.add_sub_cancel]
    exact List.take_left
  have hdrop : (encodeFrame c f).drop ((encodeFrame c f).length - 4) = ckBytes c.cksumOrder (c.cksum (frameBody c f)) := by
    rw [encodeFrame_length, Nat.add_sub_cancel]
    exact List.drop_left
  have hsum : ¬c.cksum (frameBody c f) ≠ ckValue c.cksumOrder (ckBytes c.cksumOrder (c.cksum (frameBody c f))) :=
    not_not.mpr (ckValue_ckBytes _ _).symm
  have hlen := encodeFrame_length c f
  unfold decodeAndValidate
  rw [htake, hdrop, if_neg _, if_neg hsum]
  · cases f with
    | data a x p =>
      simp only [Frame.wf, Bool.and_eq_true, decide_eq_true_eq] at hf
      obtain ⟨⟨ha, hx⟩, hp⟩ := hf
      have hkind : byteAt (encodeFrame c (.data a x p)) 0 = c.kindData := rfl
      have hack : byteAt (encodeFrame c (.data a x p)) 1 = seqByte a := rfl
      have hseq : byteAt (encodeFrame c (.data a x p)) 2 = seqByte x := rfl
      have hpayload : ((encodeFrame c (.data a x p)).drop 3).take c.pktLen = p := List.take_left' hp
      have hlen' : (encodeFrame c (.data a x p)).length = c.dataLen := by
        rw [hlen]; simp [frameBody, Config.dataLen, hp]; omega
      simp [hkind, hack, hseq, hpayload, hlen', seqByte_toNat hc ha, seqByte_toNat hc hx, Nat.not_lt.mpr ha, Nat.not_lt.mpr hx]
    | ack a =>
      have ha : a ≤ c.maxSeq := of_decide_eq_true hf
      have hkind : byteAt (encodeFrame c (.ack a)) 0 = c.kindAck := rfl
      have hack : byteAt (encodeFrame c (.ack a)) 1 = seqByte a := rfl
      have hlen' : (encodeFrame c (.ack a)).length = 6 := hlen
      simp [hkind, hack, hlen', seqByte_toNat hc ha, Nat.not_lt.mpr ha, hc.data_ne_ack.symm]
    | nak a =>
      have ha : a ≤ c.maxSeq := of_decide_eq_true hf
      have hkind : byteAt (encodeFrame c (.nak a)) 0 = c.kindNak := rfl
      have hack : byteAt (encodeFrame c (.nak a)) 1 = seqByte a := rfl
      have hlen' : (encodeFrame c (.nak a)).length = 6 := hlen
      simp [hkind, hack, hlen', seqByte_toNat hc ha, Nat.not_lt.mpr ha, hc.data_ne_nak.symm, hc.ack_ne_nak.symm]
  · rw [hlen]
    cases f <;> simp [frameBody, Config.minLen]

/-- Every DATA frame among the commands carries packet `Q k` under the number of `k`, for a `k` from `lo` up to `hi`. -/
def CarriesAdmitted (c : Config) (Q : Nat → Packet) (lo hi : Nat) (ks : List Command) : Prop :=
  ∀ b a x p, .tx b ∈ ks → decodeAndValidate c b = .ok (.data a x p) →
    ∃ k, lo ≤ k ∧ k < hi ∧ x = k % c.M ∧ p = Q k

namespace CarriesAdmitted

variable {c : Config} {Q : Nat → Packet} {lo hi : Nat} {ks ls : List Command}

theorem append (h : CarriesAdmitted c Q lo hi ks) (h' : CarriesAdmitted c Q lo hi ls) :
    CarriesAdmitted c Q lo hi (ks ++ ls) := fun b a x p hb hdec =>
  (List.mem_append.mp hb).elim (h b a x p · hdec) (h' b a x p · hdec)

theorem mono {hi' : Nat} (h : CarriesAdmitted c Q lo hi ks) (hle : hi ≤ hi') : CarriesAdmitted c Q lo hi' ks :=
  fun b a x p hb hdec =>
    let ⟨k, hlo, hlt, hx, hp⟩ := h b a x p hb hdec
    ⟨k, hlo, Nat.lt_of_lt_of_le hlt hle, hx, hp⟩

theorem of_not_isSenders (h : ∀ k ∈ ks, ¬k.isSenders c) : CarriesAdmitted c Q lo hi ks :=
  fun _ a x p hb hdec => absurd ⟨a, x, p, hdec⟩ (h _ hb)

/-- R140: the commands with which packet `Q k` is sent under its number, whatever other commands are among them. -/
theorem of_dataFrame (hc : c.Legal) {k a : Nat} (hlo : lo ≤ k) (hlt : k < hi) (ha : a < c.M)
    (hq : (Q k).length = c.pktLen)
    (hks : ∀ b, .tx b ∈ ks → b = encodeFrame c (.data a (k % c.M) (Q k))) : CarriesAdmitted c Q lo hi ks := by
  intro b a' x p hb hdec
  have hM := hc.maxSeq_succ
  have hk := Nat.mod_lt k hc.M_pos
  have hwf : (Frame.data a (k % c.M) (Q k)).wf c = true := by
    simp only [Frame.wf, Bool.and_eq_true, decide_eq_true_eq]
    exact ⟨⟨by omega, by omega⟩, hq⟩
  rw [hks b hb, decodeAndValidate_encodeFrame hc hwf] at hdec
  cases hdec
  exact ⟨k, hlo, hlt, rfl, rfl⟩

end CarriesAdmitted

/-- R36, R38: a number in flight is that of one of the packets in flight. -/
theorem exists_admitted_of_inWindow {c : Config} (hc : c.Legal) {ae x N : Nat} (hae : ae < c.M) (hx : x < c.M)
    (hcount : dist c ae (N % c.M) ≤ N) (hw : inWindow ae x (N % c.M) = true) :
    ∃ k, N - dist c ae (N % c.M) ≤ k ∧ k < N ∧ x = k % c.M := by
  have hnf := Nat.mod_lt N hc.M_pos
  have hd : 1 ≤ dist c x (N % c.M) ∧ dist c x (N % c.M) ≤ dist c ae (N % c.M) := by
    rw [inWindow_iff] at hw
    rw [dist_eq hx hnf, dist_eq hae hnf]
    split_ifs <;> omega
  refine ⟨N - dist c x (N % c.M), by omega, by omega, ?_⟩
  have hsum : x + dist c x (N % c.M) ≡ N - dist c x (N % c.M) + dist c x (N % c.M) [MOD c.M] := by
    rw [Nat.sub_add_cancel (by omega)]
    exact seqPlus_dist hc hx hnf
  have hmod := Nat.ModEq.add_right_cancel' _ hsum
  rwa [Nat.ModEq, Nat.mod_eq_of_lt hx] at hmod

/-- The sender's history in the course of an event: `N` packets admitted, and every DATA frame sent so far carries one
of those from `lo` on (R39). -/
structure HeldSoFar (c : Config) (Q : Nat → Packet) (lo N : Nat) (s : State) : Prop where
  admitted : AdmittedHeld c Q N s
  lo_le : lo ≤ N - s.nbuffered
  sent : CarriesAdmitted c Q lo N s.out

namespace HeldSoFar

variable {c : Config} {Q : Nat → Packet} {lo N : Nat} {s u : State}

theorem of_leavesSender (h : HeldSoFar c Q lo N s) (hu : LeavesSender c s u) : HeldSoFar c Q lo N u := by
  obtain ⟨⟨-, hf, hn, hb, -⟩, ks, hks, hquiet⟩ := hu
  obtain ⟨⟨hnext, hcount, hheld⟩, hlo, hsent⟩ := h
  refine ⟨⟨hf.trans hnext, hn ▸ hcount, ?_⟩, hn ▸ hlo, hks ▸ hsent.append (.of_not_isSenders hquiet)⟩
  simpa only [hn, memRead, hb] using hheld

theorem raiseFault (h : HeldSoFar c Q lo N s) (cause : FaultCause) : HeldSoFar c Q lo N (raiseFault cause s) :=
  h.of_leavesSender ⟨⟨rfl, rfl, rfl, rfl, rfl⟩, [], by simp, by simp⟩

/-- R142: a released packet is no longer in flight. -/
theorem releaseOne (h : HeldSoFar c Q lo N s) : HeldSoFar c Q lo N (releaseOne c s) := by
  obtain ⟨⟨hnext, hcount, hheld⟩, hlo, hsent⟩ := h
  rw [releaseOne_eq]
  refine ⟨⟨hnext, (Nat.sub_le _ _).trans hcount, fun k hk hkN => hheld k ?_ hkN⟩, ?_, ?_⟩
  · simp only at hk; omega
  · simp only; omega
  · exact hsent.append (by simp [CarriesAdmitted])

theorem ackRelease (h : HeldSoFar c Q lo N s) (a : Nat) : HeldSoFar c Q lo N (ackRelease c a s) :=
  ackRelease_induction h fun _ hu _ => hu.releaseOne

/-- R144: a frame in flight is sent again with the packet its slot holds. -/
theorem retransmit (hc : c.Legal) (hs : SenderInv c s) (h : HeldSoFar c Q lo N s) {x : Nat} (hx : x ∈ s.ledger) :
    HeldSoFar c Q lo N (retransmit c x s) := by
  obtain ⟨⟨hnext, hcount, hheld⟩, hlo, hsent⟩ := h
  obtain ⟨hlt, hw⟩ := (hs.ledger_mem x).mp hx
  have hd := hs.sender
  rw [hnext] at hw hd
  obtain ⟨k, hk, hkN, rfl⟩ := exists_admitted_of_inWindow hc hs.ackExpected_lt hlt (hd ▸ hcount) hw
  rw [← hd] at hk
  have hq : memRead .outBuf (slot c (k % c.M)) s = Q k := slot_mod hc k ▸ hheld k hk hkN
  have hlen : (Q k).length = c.pktLen := hq ▸ hs.memRead_length hc _
  rw [retransmit_eq]
  refine ⟨⟨hnext, hcount, hheld⟩, hlo, hsent.append ?_⟩
  refine .of_dataFrame hc (hlo.trans hk) hkN (prev_lt hc s.frameExpected) hlen fun b hb => ?_
  rw [← hq]
  simpa [dataFrameBytes, ackValue] using hb

/-- R141: an admission writes its packet into a slot that no packet in flight holds, and sends it. -/
theorem admitEffects (hc : c.Legal) (hs : SenderInv c s) (h : HeldSoFar c Q lo N s)
    (hq : (Q N).length = c.pktLen) (hroom : s.nbuffered ≠ c.W) :
    HeldSoFar c Q lo (N + 1) (admitEffects c (Q N) s) := by
  obtain ⟨⟨hnext, hcount, hheld⟩, hlo, hsent⟩ := h
  have hlt : s.nbuffered < c.W := Nat.lt_of_le_of_ne hs.nbuffered_le hroom
  have hslot : slot c s.nextFrameToSend = slot c N := hnext ▸ slot_mod hc N
  have hin : slot c s.nextFrameToSend < s.outBuf.length := hs.outBuf_length ▸ slot_lt hc _
  rw [admitEffects_eq c _ s hin]
  refine ⟨⟨?_, Nat.succ_le_succ hcount, fun k hk hkN => ?_⟩, ?_, ?_⟩
  · simp only [hnext, inc, Nat.mod_add_mod]
  · change memRead .outBuf (slot c k) (memWrite .outBuf (slot c s.nextFrameToSend) (Q N) s) = Q k
    simp only at hk
    by_cases hkeq : k = N
    · rw [hkeq, ← hslot, memRead_memWrite_outBuf _ hin]
    · have hne : slot c s.nextFrameToSend ≠ slot c k := fun heq => hkeq <| by
        have hN : N = k + (N - k) := by omega
        rw [hslot, hN] at heq
        have := slot_add_inj (c := c) (N := k) (i := N - k) (j := 0) (by omega) (by omega) heq
        omega
      rw [memRead_memWrite_outBuf_ne _ _ hne]
      exact hheld k (by omega) (by omega)
  · simp only; omega
  · refine (hsent.mono (Nat.le_succ N)).append (.of_dataFrame hc (k := N) ?_ (Nat.lt_succ_self N)
      (prev_lt hc s.frameExpected) hq fun b hb => ?_)
    · omega
    · simpa [currentDataFrame, hnext] using hb

theorem timeoutRetransmit (hc : c.Legal) (hs : SenderInv c s) (h : HeldSoFar c Q lo N s) :
    HeldSoFar c Q lo N (timeoutRetransmit c s) := by
  rcases timeoutRetransmit_cases c s with ⟨-, hr⟩ | ⟨x, rest, hledger, hr⟩ <;> rw [hr]
  · exact h.raiseFault _
  · exact h.retransmit hc hs (hledger ▸ List.mem_cons_self)

theorem nakRetransmit (hc : c.Legal) (hs : SenderInv c s) (h : HeldSoFar c Q lo N s) (a : Nat) :
    HeldSoFar c Q lo N (nakRetransmit c a s) := by
  rcases nakRetransmit_cases c a s with ⟨hw, hr⟩ | ⟨-, hr⟩ <;> rw [hr]
  · exact h.retransmit hc hs ((hs.ledger_mem _).mpr ⟨inc_lt hc a, hw⟩)
  · exact h

theorem admitPacket (hc : c.Legal) (hs : SenderInv c s) (h : HeldSoFar c Q lo N s)
    (hq : (Q N).length = c.pktLen) :
    ∃ N', N ≤ N' ∧ N' ≤ N + 1 ∧ HeldSoFar c Q lo N' (admitPacket c (Q N) s) := by
  rcases admitPacket_cases c (Q N) s with ⟨-, hr⟩ | ⟨-, -, hr⟩ | ⟨hroom, -, hr⟩ <;> rw [hr]
  · exact ⟨N, Nat.le_refl N, Nat.le_succ N, h.raiseFault _⟩
  · exact ⟨N, Nat.le_refl N, Nat.le_succ N, h.raiseFault _⟩
  · exact ⟨N + 1, Nat.le_succ N, Nat.le_refl _, h.admitEffects hc hs hq hroom⟩

end HeldSoFar

/-- R191 to R195: the handler of every event that is no NET_READY keeps what is held, and sends only that. -/
theorem handler_heldSoFar {c : Config} (hc : c.Legal) {i : Instr} (hwf : i.wf c = true)
    (hnet : ∀ h p, i ≠ .netReady h p) {Q : Nat → Packet} {lo N : Nat} {s : State} (hs : SenderInv c s)
    (h : HeldSoFar c Q lo N s) : HeldSoFar c Q lo N (handler c i s) := by
  cases i with
  | netReady hd p => exact absurd rfl (hnet hd p)
  | frameRx _ b => exact frameReceived_of_wf hwf h (h.of_leavesSender (.decodeErrorArrive hc s))
  | dataTimeout _ => exact h.timeoutRetransmit hc hs
  | ackTimeout _ => exact h.of_leavesSender (.sendAck hc s)
  | frameRxData _ a x p => exact (h.of_leavesSender (.dataArrive hc x p s)).ackRelease a
  | frameRxAck _ a => exact h.ackRelease a
  | frameRxNak _ a =>
    exact (h.ackRelease a).nakRetransmit hc (ackRelease_induction hs fun _ hu hw => hu.releaseOne hc hw) a
  | phyReady _ => exact h
  | reservedEvent5 _ _ => exact h
  | reservedEvent6 _ _ => exact h
  | reservedEvent7 _ _ => exact h

end Sys2Proof.Machine

open Sys2Proof Sys2Proof.Machine
open Sys2Proof.Config (hw)

/-- Settles O49: a slot keeps its packet while the frame is in flight, and a frame is sent when its packet is admitted or, later,
from its slot. -/
theorem transmittedDataIsWhatWasAdmitted : Obligations.TransmittedDataIsWhatWasAdmitted := by
  intro Q N i s t hs hheld hwf hq h
  obtain ⟨hsend, -⟩ := inv_iff.mp hs
  have hsend' : SenderInv hw (beginEvent s) := hsend.congr ⟨rfl, rfl, rfl, rfl, rfl⟩
  have hbegin : HeldSoFar hw Q (N - s.nbuffered) N (beginEvent s) :=
    ⟨⟨hheld.next, hheld.count, hheld.held⟩, Nat.le_refl _, fun _ _ _ _ hb => absurd hb List.not_mem_nil⟩
  obtain ⟨N', hle, hle', hhandled⟩ : ∃ N', N ≤ N' ∧ N' ≤ N + 1 ∧ HeldSoFar hw Q (N - s.nbuffered) N' (handled i s) := by
    refine handled_of (R := fun u => ∃ N', N ≤ N' ∧ N' ≤ N + 1 ∧ HeldSoFar hw Q (N - s.nbuffered) N' u)
      ⟨N, Nat.le_refl N, Nat.le_succ N, hbegin⟩ fun _ => ?_
    by_cases hnet : ∃ hd p, i = .netReady hd p
    · obtain ⟨hd, p, rfl⟩ := hnet
      obtain rfl := hq hd p rfl
      exact hbegin.admitPacket Config.hw_legal hsend' (netReady_packet_length hwf)
    · exact ⟨N, Nat.le_refl N, Nat.le_succ N, handler_heldSoFar Config.hw_legal hwf
        (fun hd p e => hnet ⟨hd, p, e⟩) hsend' hbegin⟩
  have hcore : HeldSoFar hw Q (N - s.nbuffered) N' (coreAfter i s) := by
    rw [coreAfter_eq]
    exact hhandled.of_leavesSender (.emit (gateCommand_not_isSenders _ _ _ _) _)
  obtain ⟨⟨hnext, hcount, hkept⟩, -, hsent⟩ := hcore
  rw [exec_eq_next h]
  exact ⟨N', hle, hle', ⟨hnext, hcount, hkept⟩, hsent⟩

end

section
/-! What each command and each delivery does to its collaborator (R61, R221 to R224; log entries 9, 10 and 16). -/

namespace Sys2Proof.Machine

open Sys2Proof

/-- R221: START_TIMER of an idle slot arms that slot's timer and no other, and changes nothing else. -/
theorem startTimer_arms {i : Nat} {e : Env} (hi : i < e.timers.length) (hidle : e.armed i = false) :
    ∃ ts : List Bool, e.startTimer i = { e with timers := ts } ∧ ts.length = e.timers.length ∧
      ∀ j, ts.getD j false = if j = i then true else e.armed j := by
  refine ⟨_, startTimer_idle hidle, List.length_set, fun j => ?_⟩
  split
  next hj => subst hj; simp [List.getD_eq_getElem?_getD, hi]
  next hj => simp [Env.armed, List.getD_eq_getElem?_getD, List.getElem?_set_ne (Ne.symm hj)]

/-- R221, U20: START_TIMER of an armed slot leaves the mark of a double start and nothing else. -/
theorem startTimer_of_armed {i : Nat} {e : Env} (h : e.armed i = true) :
    e.startTimer i = { e with doubleStart := true } := by
  simp [Env.startTimer, h]

/-- R221: STOP_TIMER makes the slot's timer idle and no other, and changes nothing else. -/
theorem stopTimer_disarms (e : Env) (i : Nat) :
    ∃ ts : List Bool, e.stopTimer i = { e with timers := ts } ∧ ts.length = e.timers.length ∧
      ∀ j, ts.getD j false = if j = i then false else e.armed j := by
  refine ⟨_, rfl, List.length_set, fun j => (armed_stopTimer i j e).trans ?_⟩
  split
  next hj => simp [hj]
  next hj => simp [Ne.symm hj]

/-- R221: STOP_TIMER is "a no-op on an idle timer". -/
theorem stopTimer_of_idle {i : Nat} {e : Env} (h : e.armed i = false) : e.stopTimer i = e := by
  have htimers : e.timers.set i false = e.timers := by
    by_cases hi : i < e.timers.length
    · have hslot : e.timers[i] = false := by rwa [Env.armed, List.getD_eq_getElem _ _ hi] at h
      rw [← hslot, List.set_getElem_self]
    · exact List.set_eq_of_length_le (Nat.le_of_not_lt hi)
  rw [Env.stopTimer, htimers]

/-- R221 to R224: an event that comes from no timer, brings no packet and announces no rise delivers nothing. -/
theorem eventDelivery_of_no_delivery {i : Instr} (htimeout : ∀ h, i ≠ .dataTimeout h) (hack : ∀ h, i ≠ .ackTimeout h)
    (hnet : ∀ h p, i ≠ .netReady h p) (hphy : ∀ h, i ≠ .phyReady h) (e : Env) : eventDelivery i e = e := by
  cases i with
  | netReady h p => exact absurd rfl (hnet h p)
  | phyReady h => exact absurd rfl (hphy h)
  | dataTimeout h => exact absurd rfl (htimeout h)
  | ackTimeout h => exact absurd rfl (hack h)
  | _ => rfl

/-- R223: a high level that is sampled makes a PHY_READY due if it was low before. -/
theorem sampled_true (e : Env) :
    e.sampled true = { e with phlReady := true, phyDue := if e.phlReady then e.phyDue else e.phyDue + 1 } := by
  unfold Env.sampled Env.levelIs
  cases e.phlReady <;> rfl

/-- R223, R224: on their own the collaborators sample a level, split the waiting frames between the wire and those that wait on,
and may come by a packet. -/
theorem exists_elapse_eq (c : Config) (e : Env) :
    ∃ (waiting sent : List Bytes) (more level : Bool),
      e.elapse c = { e.sampled level with
        accepted := waiting, onWire := e.onWire ++ sent, netWaiting := e.netWaiting || more, moments := e.moments + 1 } ∧
      (sent ++ waiting).Perm e.accepted :=
  ⟨_, _, c.netOffers e.moments, c.phyLevel e.moments, rfl, picked_perm (c.phySends e.moments) e.accepted⟩

end Sys2Proof.Machine

open Sys2Proof Sys2Proof.Machine
open Sys2Proof.Config (hw)

/-- Settles O40: whatever the handler did, the event ends with `settle`, which performs its output list. -/
theorem collaboratorsPerformTheOutputs : Obligations.CollaboratorsPerformTheOutputs := fun _ _ _ h => exec_env h

/-- Settles O50: the timers command by command; what sets or appends to one field holds by evaluation. -/
theorem commandsActOnTheirCollaborator : Obligations.CommandsActOnTheirCollaborator := by
  intro e
  refine ⟨fun _ => startTimer_arms, fun _ => startTimer_of_armed, stopTimer_disarms e, fun _ => stopTimer_of_idle,
    rfl, rfl, fun _ => rfl, fun _ => rfl, rfl, rfl,
    perform_nil e, fun k ks => perform_cons k ks e,
    fun _ => rfl, fun _ => rfl, fun _ _ => rfl, fun _ => rfl,
    fun _ htimeout hack hnet hphy => eventDelivery_of_no_delivery htimeout hack hnet hphy e,
    rfl, sampled_true e, fun _ _ => rfl, exists_elapse_eq hw e⟩

end

section
/-! The event word and the frame codec as encodings: each decoder and its encoder are inverse to each other (R80, R81, R83,
R131). -/

namespace Sys2Proof.Machine

/-- R120, R123: the body of the frame found in a byte string is the string without its checksum. -/
theorem frameBody_of_decodeAndValidate {c : Config} {b : Bytes} {f : Frame} (h : decodeAndValidate c b = .ok f) :
    frameBody c f = b.take (b.length - 4) := by
  obtain ⟨hmin, -, -, hf⟩ := decodeAndValidate_eq_ok h
  match b, hmin with
  | b0 :: b1 :: b2 :: rest, _ =>
    rcases hf with ⟨hkind, hlen, -, rfl⟩ | ⟨hkind, hlen, rfl⟩ | ⟨hkind, hlen, rfl⟩
    · have hbody : (b0 :: b1 :: b2 :: rest).length - 4 = c.pktLen + 3 := by rw [hlen, Config.dataLen]; omega
      rw [hbody]
      simp [frameBody, byteAt, ← hkind]
    · rw [hlen]
      simp [frameBody, byteAt, Config.ctrlLen, ← hkind]
    · rw [hlen]
      simp [frameBody, byteAt, Config.ctrlLen, ← hkind]

/-- R131: a byte string that decodes is the encoding of the frame found in it. -/
theorem encodeFrame_of_decodeAndValidate {c : Config} {b : Bytes} {f : Frame} (h : decodeAndValidate c b = .ok f) :
    encodeFrame c f = b := by
  obtain ⟨hmin, hsum, -⟩ := decodeAndValidate_eq_ok h
  have hck : (b.drop (b.length - 4)).length = 4 := by
    rw [List.length_drop, Nat.sub_sub_self (Nat.le_trans (by decide) hmin)]
  rw [encodeFrame, frameBody_of_decodeAndValidate h, hsum, ckBytes_ckValue _ hck, List.take_append_drop]

end Sys2Proof.Machine

namespace Sys2Proof

open Sys2Proof.Config (hw)

/-! ### The header -/

/-- R80: the header of a well-formed event is well-formed. -/
theorem Instr.header_wf {c : Config} {i : Instr} (hwf : i.wf c = true) : i.header.wf c = true := by
  cases i with
  | netReady _ _ => exact (Bool.and_eq_true_iff.mp hwf).1
  | frameRx _ _ => exact (Bool.and_eq_true_iff.mp hwf).1
  | frameRxData _ _ _ _ => exact (Bool.and_eq_true_iff.mp hwf).1
  | frameRxAck _ _ => exact (Bool.and_eq_true_iff.mp hwf).1
  | frameRxNak _ _ => exact (Bool.and_eq_true_iff.mp hwf).1
  | _ => exact hwf

theorem headerOp_lt (w : Nat) : headerOp w < 8 := Nat.mod_lt w (by decide)

/-- R80: an opcode and a well-formed header fit one header word, from which each is read back. -/
theorem decodeHeader_encodeHeader_hw {op : Nat} {h : Header} (hop : op < 8) (hh : h.wf hw = true) :
    encodeHeader hw op h < 2 ^ hw.hdrBits ∧ headerOp (encodeHeader hw op h) = op ∧
      decodeHeader hw (encodeHeader hw op h) = h := by
  obtain ⟨hslot, hres⟩ := (Machine.header_wf_hw h).mp hh
  obtain ⟨phl, slot, reserved⟩ := h
  simp only at hslot hres
  simp only [encodeHeader, decodeHeader, headerOp, headerPhl, headerSlot, headerReserved, Config.hw_W, Config.hw_hdrBits,
    Header.mk.injEq]
  cases phl <;> simp <;> omega

/-- R80: a header word is made up of its opcode and its fields, no bit left over. -/
theorem encodeHeader_decodeHeader_hw (w : Nat) : encodeHeader hw (headerOp w) (decodeHeader hw w) = w := by
  have hphl : (headerPhl w).toNat = w / 8 % 2 := by
    rcases Nat.mod_two_eq_zero_or_one (w / 8) with h | h <;> simp [headerPhl, h]
  simp only [encodeHeader, decodeHeader, hphl, headerOp, headerSlot, headerReserved, Config.hw_W]
  omega

/-- R81: a word whose header fits is dispatched on its opcode. -/
theorem decode_of_decodeOp {c : Config} {w op : Nat} {o : Option Bytes} {i : Instr} (hwidth : w < 2 ^ c.hdrBits)
    (hop : headerOp w = op) (hi : decodeOp c op (decodeHeader c w) o = .ok i) : decode c ⟨w, o⟩ = .ok i :=
  decode_eq_ok.mpr ⟨hwidth, hop.symm ▸ hi⟩

/-! ### The operand -/

/-- R83: the form that FRAME_RX takes for a frame. -/
def rxForm (h : Header) : Machine.Frame → Instr
  | .data a x p => .frameRxData h a x p
  | .ack a => .frameRxAck h a
  | .nak a => .frameRxNak h a

/-- R83: an operand that is a frame gives that frame's form. -/
theorem decodeFrameRx_of_ok {c : Config} {b : Bytes} {f : Machine.Frame} (hb : Machine.decodeAndValidate c b = .ok f)
    (h : Header) : decodeFrameRx c h b = rxForm h f := by
  rw [decodeFrameRx, hb]
  cases f <;> rfl

/-- R123, R129: `isFrame` says whether the codec finds a frame. -/
theorem isFrame_iff {c : Config} {b : Bytes} : isFrame c b = true ↔ ∃ f, Machine.decodeAndValidate c b = .ok f := by
  unfold isFrame
  cases Machine.decodeAndValidate c b <;> simp

/-- R83: an operand that is no frame gives the plain form. -/
theorem decodeFrameRx_of_not_isFrame {c : Config} {b : Bytes} (hb : isFrame c b = false) (h : Header) :
    decodeFrameRx c h b = .frameRx h b := by
  unfold isFrame at hb
  unfold decodeFrameRx
  cases hd : Machine.decodeAndValidate c b with
  | ok f => rw [hd] at hb; cases hb
  | decodeError e => rfl
  | malformed e => rfl

/-- R81, R83: the opcode, the header and the operand of a well-formed event determine it. -/
theorem decodeOp_encodeOperand {c : Config} (hc : c.Legal) {i : Instr} (hwf : i.wf c = true) :
    decodeOp c i.op i.header (encodeOperand c i) = .ok i := by
  have hform (h : Header) (f : Machine.Frame) (hf : (h.wf c && f.wf c) = true) :
      decodeFrameRx c h (Machine.encodeFrame c f) = rxForm h f :=
    decodeFrameRx_of_ok (Machine.decodeAndValidate_encodeFrame hc (Bool.and_eq_true_iff.mp hf).2) h
  cases i with
  | frameRx h b => exact congrArg Except.ok (decodeFrameRx_of_not_isFrame (Machine.not_isFrame_of_wf hwf) h)
  | frameRxData h a x p => exact congrArg Except.ok (hform h (.data a x p) hwf)
  | frameRxAck h a => exact congrArg Except.ok (hform h (.ack a) hwf)
  | frameRxNak h a => exact congrArg Except.ok (hform h (.nak a) hwf)
  | _ => rfl

/-- R80 to R83: what an event's encoding is made of is what the decoder was given. -/
structure EncodesTo (c : Config) (i : Instr) (op : Nat) (h : Header) (o : Option Bytes) : Prop where
  op_eq : i.op = op
  header_eq : i.header = h
  operand_eq : encodeOperand c i = o

/-- R83, R131: whichever form FRAME_RX takes, its operand is the byte string received. -/
theorem decodeFrameRx_encodesTo (c : Config) (h : Header) (b : Bytes) :
    EncodesTo c (decodeFrameRx c h b) 2 h (some b) := by
  cases hb : isFrame c b with
  | false => rw [decodeFrameRx_of_not_isFrame hb]; exact ⟨rfl, rfl, rfl⟩
  | true =>
    obtain ⟨f, hf⟩ := isFrame_iff.mp hb
    have hencode := congrArg some (Machine.encodeFrame_of_decodeAndValidate hf)
    rw [decodeFrameRx_of_ok hf]
    cases f <;> exact ⟨rfl, rfl, hencode⟩

/-- R81: the event decoded under an opcode keeps that opcode, the header and the operand. -/
theorem decodeOp_encodesTo {c : Config} {op : Nat} {h : Header} {o : Option Bytes} {i : Instr} (hop : op < 8)
    (hi : decodeOp c op h o = .ok i) : EncodesTo c i op h o := by
  interval_cases op
  · obtain ⟨p, rfl, rfl⟩ := withOperand_eq_ok.mp hi; exact ⟨rfl, rfl, rfl⟩
  · obtain ⟨rfl, rfl⟩ := withoutOperand_eq_ok.mp hi; exact ⟨rfl, rfl, rfl⟩
  · obtain ⟨b, rfl, rfl⟩ := withOperand_eq_ok.mp hi; exact decodeFrameRx_encodesTo c h b
  · obtain ⟨rfl, rfl⟩ := withoutOperand_eq_ok.mp hi; exact ⟨rfl, rfl, rfl⟩
  · obtain ⟨rfl, rfl⟩ := withoutOperand_eq_ok.mp hi; exact ⟨rfl, rfl, rfl⟩
  · cases hi; exact ⟨rfl, rfl, rfl⟩
  · cases hi; exact ⟨rfl, rfl, rfl⟩
  · cases hi; exact ⟨rfl, rfl, rfl⟩

/-- R82: a one-byte header with one of the opcodes 5, 6 and 7 decodes to an event that is refused under that opcode. -/
theorem decode_reserved_hw {ev : EventWord} (hwidth : ev.header < 2 ^ hw.hdrBits) (hop : 5 ≤ headerOp ev.header) :
    ∃ i, decode hw ev = .ok i ∧ i.wf hw = true ∧
      ∀ s, Machine.exec i s = .refused (.reservedEvent (headerOp ev.header)) := by
  have hlt := headerOp_lt ev.header
  have hwf := decodeHeader_wf_hw hwidth
  obtain h | h | h : headerOp ev.header = 5 ∨ headerOp ev.header = 6 ∨ headerOp ev.header = 7 := by omega
  · exact ⟨.reservedEvent5 _ ev.operand, decode_of_decodeOp hwidth h rfl, hwf, fun _ => by rw [h]; rfl⟩
  · exact ⟨.reservedEvent6 _ ev.operand, decode_of_decodeOp hwidth h rfl, hwf, fun _ => by rw [h]; rfl⟩
  · exact ⟨.reservedEvent7 _ ev.operand, decode_of_decodeOp hwidth h rfl, hwf, fun _ => by rw [h]; rfl⟩

end Sys2Proof
end

section
/-! Every frame that an event transmits is one of the build, with the current ack value (R85, R175). -/

namespace Sys2Proof.Machine

open Sys2Proof
open Sys2Proof.Config (hw)

/-- R193: a byte string in which a frame is found does what the frame does. -/
theorem frameReceived_of_ok {c : Config} {b : Bytes} {f : Frame} (h : decodeAndValidate c b = .ok f) :
    frameReceived c b = frameArrive c f := by
  funext s
  rw [frameReceived, h]

/-- R39, R104: no other number of the receiver's window has the slot of the expected one. -/
theorem slot_ne_frameExpected {c : Config} (hc : c.Legal) {fe x : Nat} (hf : fe < c.M) (hx : x < c.M) (hne : x ≠ fe)
    (hw : inWindow fe x ((fe + c.W) % c.M) = true) : slot c x ≠ slot c fe := by
  intro hslot
  have hd := seqPlus_dist hc hf hx
  have hzero : dist c fe x = 0 := by
    refine slot_seqPlus_inj hc hf (dist_lt_of_inWindow hc hf hx hw) hc.W_pos ?_
    rw [hd, seqPlus_zero hf, hslot]
  rw [hzero, seqPlus_zero hf] at hd
  exact hne hd.symm

/-- R162: after a frame that is not the expected one there is nothing to drain. -/
theorem drain_bufferFrame_of_ne {c : Config} (hc : c.Legal) {s : State} (h : ReceiverInv c s) {x : Nat} (hx : x < c.M)
    (hne : x ≠ s.frameExpected) (hw : inWindow s.frameExpected x s.tooFar = true) (p : Packet) :
    drain c (bufferFrame c x p s) = bufferFrame c x p s := by
  have hslot := slot_ne_frameExpected hc h.frameExpected_lt hx hne (h.receiver ▸ hw)
  have hrounds : DrainRounds c c.W 0 (bufferFrame c x p s) := by
    refine ⟨Nat.zero_le _, fun j hj => absurd hj (Nat.not_lt_zero j), fun _ => ?_⟩
    change arrivedBit (slot c (seqPlus c s.frameExpected 0)) (setArrived (slot c x) true s) = false
    rw [seqPlus_zero h.frameExpected_lt, arrivedBit_setArrived_ne s true hslot]
    exact h.expected_not_arrived
  rw [drain_eq hc (s := bufferFrame c x p s) h.frameExpected_lt h.tooFar_lt hrounds]
  exact drainMany_zero (s := bufferFrame c x p s) h.frameExpected_lt h.tooFar_lt

/-- R160, R161: only the expected frame moves the receiver's lower edge. -/
theorem acceptFrame_frameExpected_of_ne {c : Config} (hc : c.Legal) {s : State} (h : ReceiverInv c s) {x : Nat}
    (hx : x < c.M) (hne : x ≠ s.frameExpected) (p : Packet) :
    (acceptFrame c x p s).frameExpected = s.frameExpected := by
  rcases acceptFrame_cases c x p s with ⟨hw, -, e⟩ | ⟨-, e⟩ <;> rw [e]
  rw [drain_bufferFrame_of_ne hc h hx hne hw]
  rfl

/-- R161, R162: buffering and draining transmit nothing. -/
theorem tx_mem_of_mem_acceptFrame {c : Config} {x : Nat} {p : Packet} {b : Bytes} {s : State}
    (hb : .tx b ∈ (acceptFrame c x p s).out) : .tx b ∈ s.out := by
  rcases acceptFrame_cases c x p s with ⟨-, -, e⟩ | ⟨-, e⟩ <;> rw [e] at hb
  · obtain ⟨fe, tf, ar, nn, st, hd, hdrain⟩ := drainLoop_frame c c.W (bufferFrame c x p s)
    rw [drain, hd] at hb
    refine (List.mem_append.mp hb).resolve_right fun hst => ?_
    cases hdrain _ hst
  · exact hb

/-- In the course of an event: every frame transmitted so far decodes, and carries the ack value of the state reached (R175). -/
def AcksCurrent (c : Config) (s : State) : Prop :=
  ∀ b, .tx b ∈ s.out → ∃ f, decodeAndValidate c b = .ok f ∧ f.ackField = prev c s.frameExpected

namespace AcksCurrent

variable {c : Config} {s u : State}

/-- R190: the event begins with the empty output list. -/
theorem of_out_eq_nil (hempty : s.out = []) : AcksCurrent c s := fun b hb => by rw [hempty] at hb; cases hb

/-- An operation that keeps the ack value and transmits only frames of the build that carry it. -/
theorem append (hc : c.Legal) (h : AcksCurrent c s) {ks : List Command} (hfe : u.frameExpected = s.frameExpected)
    (hout : u.out = s.out ++ ks)
    (hks : ∀ b, .tx b ∈ ks → ∃ f : Frame, f.wf c = true ∧ f.ackField = prev c s.frameExpected ∧ b = encodeFrame c f) :
    AcksCurrent c u := by
  intro b hb
  rw [hout] at hb
  rw [hfe]
  rcases List.mem_append.mp hb with hb | hb
  · exact h b hb
  · obtain ⟨f, hwf, hack, rfl⟩ := hks b hb
    exact ⟨f, decodeAndValidate_encodeFrame hc hwf, hack⟩

/-- An operation that keeps the ack value and emits one command, which is no TX. -/
theorem emit (hc : c.Legal) (h : AcksCurrent c s) {k : Command} (hk : k.isTx = false)
    (hfe : u.frameExpected = s.frameExpected) (hout : u.out = s.out ++ [k]) : AcksCurrent c u :=
  h.append hc hfe hout fun b hb => by rw [← List.mem_singleton.mp hb] at hk; cases hk

/-- R103, R175: the ack value is a sequence number. -/
theorem ackValue_le (hc : c.Legal) (s : State) : ackValue c s ≤ c.maxSeq := by
  have hlt := prev_lt hc s.frameExpected
  have hM := hc.maxSeq_succ
  simp only [ackValue]
  omega

/-- R178: a standalone ACK. -/
theorem sendAck (hc : c.Legal) (h : AcksCurrent c s) : AcksCurrent c (sendAck c s) :=
  h.append hc rfl rfl fun _ hb =>
    ⟨.ack (ackValue c s), decide_eq_true (ackValue_le hc s), rfl, by simpa using hb⟩

/-- R165: a NAK. -/
theorem sendNak (hc : c.Legal) (h : AcksCurrent c s) : AcksCurrent c (sendNak c s) :=
  h.append hc rfl rfl fun _ hb =>
    ⟨.nak (ackValue c s), decide_eq_true (ackValue_le hc s), rfl, by simpa using hb⟩

/-- R140: a DATA frame with a packet of PKT_LEN bytes under a sequence number, whatever other commands go with it. -/
theorem appendData (hc : c.Legal) (h : AcksCurrent c s) {x : Nat} {p : Packet} (hx : x < c.M) (hp : p.length = c.pktLen)
    {ks : List Command} (hfe : u.frameExpected = s.frameExpected) (hout : u.out = s.out ++ ks)
    (hks : ∀ b, .tx b ∈ ks → b = encodeFrame c (.data (prev c s.frameExpected) x p)) : AcksCurrent c u := by
  refine h.append hc hfe hout fun b hb => ⟨_, ?_, rfl, hks b hb⟩
  have ha : prev c s.frameExpected ≤ c.maxSeq := ackValue_le hc s
  have hM := hc.maxSeq_succ
  simp only [Frame.wf, Bool.and_eq_true, decide_eq_true_eq]
  exact ⟨⟨ha, by omega⟩, hp⟩

theorem retransmit (hc : c.Legal) (hs : SenderInv c s) (h : AcksCurrent c s) {x : Nat} (hx : x ∈ s.ledger) :
    AcksCurrent c (retransmit c x s) := by
  rw [retransmit_eq]
  exact h.appendData hc ((hs.ledger_mem x).mp hx).1 (hs.memRead_length hc x) rfl rfl fun b hb => by
    simpa [dataFrameBytes, ackValue] using hb

theorem admitPacket (hc : c.Legal) (hs : SenderInv c s) (h : AcksCurrent c s) {p : Packet} (hp : p.length = c.pktLen) :
    AcksCurrent c (admitPacket c p s) := by
  rcases admitPacket_cases c p s with ⟨-, hr⟩ | ⟨-, -, hr⟩ | ⟨-, -, hr⟩ <;> rw [hr]
  · exact h
  · exact h
  · rw [admitEffects_eq c p s (hs.outBuf_length ▸ slot_lt hc _)]
    exact h.appendData hc hs.nextFrameToSend_lt hp rfl rfl fun b hb => by simpa [currentDataFrame] using hb

theorem timeoutRetransmit (hc : c.Legal) (hs : SenderInv c s) (h : AcksCurrent c s) :
    AcksCurrent c (timeoutRetransmit c s) := by
  rcases timeoutRetransmit_cases c s with ⟨-, hr⟩ | ⟨x, rest, hledger, hr⟩ <;> rw [hr]
  · exact h
  · exact h.retransmit hc hs (hledger ▸ List.mem_cons_self)

theorem nakRetransmit (hc : c.Legal) (hs : SenderInv c s) (h : AcksCurrent c s) (a : Nat) :
    AcksCurrent c (nakRetransmit c a s) := by
  rcases nakRetransmit_cases c a s with ⟨hw, hr⟩ | ⟨-, hr⟩ <;> rw [hr]
  · exact h.retransmit hc hs ((hs.ledger_mem _).mpr ⟨inc_lt hc a, hw⟩)
  · exact h

/-- R142: a release transmits nothing. -/
theorem ackRelease (hc : c.Legal) (h : AcksCurrent c s) (a : Nat) : AcksCurrent c (ackRelease c a s) :=
  ackRelease_induction h fun _ hu _ => hu.emit hc rfl rfl rfl

theorem decodeErrorArrive (hc : c.Legal) (h : AcksCurrent c s) : AcksCurrent c (decodeErrorArrive c s) := by
  unfold Machine.decodeErrorArrive
  split
  · exact h.sendNak hc
  · exact h

/-- R160 to R162: a NAK goes out before the drain, but only for a frame that is not the expected one, after which the lower edge
stays. -/
theorem dataArrive (hc : c.Legal) (hr : ReceiverInv c s) (hempty : s.out = []) {x : Nat} (hx : x < c.M) (p : Packet) :
    AcksCurrent c (dataArrive c x p s) := by
  have hnone : AcksCurrent c s := of_out_eq_nil hempty
  unfold Machine.dataArrive
  by_cases hne : x = s.frameExpected
  · have hdelay : nakOrDelay c x s = Machine.emit .startAckTimer s := if_neg fun h => h.1 hne
    intro b hb
    have hb' := tx_mem_of_mem_acceptFrame hb
    simp [hdelay, hempty] at hb'
  · obtain ⟨hfe, hfirst⟩ : (nakOrDelay c x s).frameExpected = s.frameExpected ∧ AcksCurrent c (nakOrDelay c x s) := by
      rcases nakOrDelay_cases c x s with ⟨-, -, e⟩ | ⟨-, e⟩ <;> rw [e]
      · exact ⟨rfl, hnone.sendNak hc⟩
      · exact ⟨rfl, hnone.emit hc rfl rfl rfl⟩
    intro b hb
    rw [acceptFrame_frameExpected_of_ne hc (hr.nakOrDelay x) hx (hfe ▸ hne)]
    exact hfirst b (tx_mem_of_mem_acceptFrame hb)

end AcksCurrent

/-- R191 to R195: the handler of every well-formed event, begun with the empty output list. -/
theorem handler_acksCurrent {c : Config} (hc : c.Legal) {i : Instr} (hwf : i.wf c = true) {s : State}
    (hs : SenderInv c s) (hr : ReceiverInv c s) (hempty : s.out = []) : AcksCurrent c (handler c i s) := by
  have h : AcksCurrent c s := .of_out_eq_nil hempty
  cases i with
  | netReady _ p => exact h.admitPacket hc hs (netReady_packet_length hwf)
  | frameRx _ b => exact frameReceived_of_wf hwf h (h.decodeErrorArrive hc)
  | dataTimeout _ => exact h.timeoutRetransmit hc hs
  | ackTimeout _ => exact h.sendAck hc
  | frameRxData _ a x p =>
    obtain ⟨-, hle, -⟩ := frameRxData_fields hwf
    exact (AcksCurrent.dataArrive hc hr hempty (hc.maxSeq_succ ▸ Nat.lt_succ_of_le hle) p).ackRelease hc a
  | frameRxAck _ a => exact h.ackRelease hc a
  | frameRxNak _ a =>
    exact (h.ackRelease hc a).nakRetransmit hc (ackRelease_induction hs fun _ hu hw => hu.releaseOne hc hw) a
  | phyReady _ => exact h
  | reservedEvent5 _ _ => exact h
  | reservedEvent6 _ _ => exact h
  | reservedEvent7 _ _ => exact h

/-- R196: the gate's command is no TX. -/
theorem gateCommand_isTx (c : Config) (phl halted : Bool) (nbuffered : Nat) :
    (gateCommand c phl halted nbuffered).isTx = false := by
  unfold gateCommand
  split <;> rfl

end Sys2Proof.Machine
end

section
/-! The obligations of the encoding family. -/

open Sys2Proof Sys2Proof.Machine
open Sys2Proof.Config (hw)

/-- Settles O2: the header word gives back its fields, and the opcode, the header and the operand determine the event. -/
theorem decodeOfEncodeIsTheEvent : Obligations.DecodeOfEncodeIsTheEvent := by
  intro i hwf
  obtain ⟨hwidth, hop, hheader⟩ := decodeHeader_encodeHeader_hw (Laws.EncodedOp.op_lt i) (Instr.header_wf hwf)
  exact decode_of_decodeOp hwidth hop (hheader.symm ▸ decodeOp_encodeOperand Config.hw_legal hwf)

/-- Settles O3: opcode, header and operand of the decoded event are those of the word, and the header word is made up of its
fields. -/
theorem encodeOfDecodeIsTheWord : Obligations.EncodeOfDecodeIsTheWord := by
  intro ev i hdec
  obtain ⟨hop, hheader, hoperand⟩ := decodeOp_encodesTo (headerOp_lt ev.header) (decode_eq_ok.mp hdec).2
  rw [encode, hop, hheader, hoperand, encodeHeader_decodeHeader_hw]

/-- Settles O44: the handler transmits only frames with the ack value of the state it leaves, and the gate transmits nothing. -/
theorem emittedFramesAreValidAndCarryTheAckValue : Obligations.EmittedFramesAreValidAndCarryTheAckValue := by
  intro i s t hs hwf h
  obtain ⟨hsend, hrecv, -⟩ := inv_iff.mp hs
  have hhandled : AcksCurrent hw (handled i s) :=
    handled_of (.of_out_eq_nil rfl) fun _ =>
      handler_acksCurrent Config.hw_legal hwf (hsend.congr ⟨rfl, rfl, rfl, rfl, rfl⟩) (hrecv.congr rfl rfl rfl rfl) rfl
  rw [exec_eq_next h, coreAfter_eq]
  exact hhandled.emit Config.hw_legal (gateCommand_isTx _ _ _ _) rfl rfl

/-- Settles O1: each word is a numeral, so that its width, its opcode and its fields are read off by evaluation. -/
theorem headerWordsDecodeToTheirEvents : Obligations.HeaderWordsDecodeToTheirEvents := by
  intro p o
  refine ⟨?_, ?_, ?_, ?_, ?_, ?_, ?_, ?_, ?_, ?_, ?_, ?_⟩ <;> exact decode_of_decodeOp (by decide) rfl rfl

/-- Settles O8: a word with a reserved opcode decodes to a well-formed reserved event, whose arm refuses it. -/
theorem reservedOpcodesAreRefused : Obligations.ReservedOpcodesAreRefused := by
  refine ⟨fun _ _ _ => ⟨rfl, rfl, rfl⟩, fun ev rest s hstuck hin hwidth hop => ?_⟩
  obtain ⟨i, hdec, hwf, hrefused⟩ := decode_reserved_hw hwidth hop
  rw [step_of_decode_ok hstuck hin hdec, if_pos hwf]
  exact hrefused _

/-- Settles O25: the handler of a byte string that is a frame is that frame's handler. -/
theorem frameRxIsTheFormOfItsFrame : Obligations.FrameRxIsTheFormOfItsFrame := by
  intro h b s a x p
  have hform {f : Frame} (hb : decodeAndValidate hw b = .ok f) :
      exec (.frameRx h b) s = .next (runEvent hw h.phl id (frameArrive hw f) s) := by
    rw [← frameReceived_of_ok hb]
    rfl
  exact ⟨hform, hform, hform⟩

/-- Settles O39: a handler is given the readiness level and the operand alone; the slot of a DATA_TIMEOUT goes to the timer
service. -/
theorem slotFieldAndReservedBitAreIgnored : Obligations.SlotFieldAndReservedBitAreIgnored := by
  rintro ⟨phl, slot, reserved⟩ ⟨_, slot', reserved'⟩ s rfl
  refine ⟨fun _ => rfl, rfl, fun _ => rfl, fun _ _ _ => rfl, fun _ => rfl, fun _ => rfl, rfl, _, _, rfl, rfl, ?_⟩
  have hcore : coreAfter (.dataTimeout ⟨phl, slot, reserved⟩) s = coreAfter (.dataTimeout ⟨phl, slot', reserved'⟩) s := rfl
  rw [exec_eq_next (i := .dataTimeout ⟨phl, slot, reserved⟩) rfl,
    exec_eq_next (i := .dataTimeout ⟨phl, slot', reserved'⟩) rfl, hcore]
  exact ⟨⟨⟨rfl, rfl, rfl, rfl, rfl⟩, ⟨rfl, rfl, rfl, rfl, rfl⟩, rfl⟩, rfl⟩

end

section
/-! The sequence arithmetic in closed form (spec/40_sequence_arithmetic.md), for every build. -/

namespace Sys2Proof.Machine

open Sys2Proof

/-- R102: a number is in the window when it is nearer to the lower edge than the upper edge is. -/
theorem inWindow_iff_dist_lt {c : Config} {low x high : Nat} (hl : low < c.M) (hx : x < c.M) (hh : high < c.M) :
    inWindow low x high = true ↔ dist c low x < dist c low high := by
  rw [inWindow_iff, dist_eq hl hx, dist_eq hl hh]
  split_ifs <;> omega

/-- R101, R102: how many of the first `n` numbers are in a window: those between its edges, and where the upper edge has
wrapped, those below the upper edge and those from the lower edge on. -/
theorem countP_range_inWindow (low high n : Nat) :
    (List.range n).countP (fun x => inWindow low x high) =
      if low ≤ high then min n high - low else min n high + (n - low) := by
  induction n with
  | zero => simp
  | succ n ih =>
    rw [List.range_succ, List.countP_append, List.countP_singleton, ih]
    simp only [inWindow_iff]
    split_ifs <;> omega

section Legal

variable {c : Config} (hc : c.Legal)
include hc

/-- R104: the other number that has the slot of `s` is W above it or W below it. -/
theorem slot_eq_slot_iff {s t : Nat} (hs : s < c.M) (ht : t < c.M) (hne : s ≠ t) :
    slot c s = slot c t ↔ t = seqPlus c s c.W := by
  have hM := hc.M_eq
  have hW := hc.W_pos
  rw [slot_eq hc hs, slot_eq hc ht, seqPlus_eq hs (by omega)]
  split_ifs <;> omega

theorem inc_maxSeq : inc c c.maxSeq = 0 := by
  rw [inc, hc.maxSeq_succ, Nat.mod_self]

theorem prev_zero : prev c 0 = c.maxSeq := prev_eq hc hc.M_pos

theorem inc_prev {s : Nat} (hs : s < c.M) : inc c (prev c s) = s := by
  rw [inc_eq (prev_lt hc s), prev_eq hc hs]
  split_ifs <;> omega

theorem prev_inc {s : Nat} (hs : s < c.M) : prev c (inc c s) = s := by
  rw [prev_eq hc (inc_lt hc s), inc_eq hs]
  by_cases hwrap : s + 1 = c.M
  · rw [if_pos hwrap, if_pos rfl, ← hwrap, Nat.add_sub_cancel]
  · rw [if_neg hwrap, if_neg (Nat.succ_ne_zero s), Nat.add_sub_cancel]

end Legal

end Sys2Proof.Machine
end

section
/-! The obligations of the sequence arithmetic family. -/

open Sys2Proof Sys2Proof.Machine

/-- Settles O11: the three cases of the window are one comparison of distances, and counting its members up to M leaves the
distance of its edges. -/
theorem inWindowIsModularDistance : Obligations.InWindowIsModularDistance := by
  intro c _ low high hl hh
  refine ⟨fun x hx => ?_, ?_⟩
  · rw [Bool.eq_iff_iff, decide_eq_true_iff]
    exact inWindow_iff_dist_lt hl hx hh
  · change _ = dist c low high
    rw [countP_range_inWindow, dist_eq hl hh]
    split_ifs <;> omega

/-- Settles O12: the numbers with the slot of `s` are `s` and the one W away. -/
theorem slotsCollideHalfASpaceApart : Obligations.SlotsCollideHalfASpaceApart :=
  fun _ hc s _ hs ht => ⟨rfl, slot_lt hc s, slot_eq_slot_iff hc hs ht⟩

/-- Settles O13: the wraps at both ends, and `prev` undoes `inc` and `inc` undoes `prev`. -/
theorem incAndPrevAreInverse : Obligations.IncAndPrevAreInverse :=
  fun _ hc => ⟨inc_maxSeq hc, prev_zero hc, fun _ hs => ⟨rfl, inc_prev hc hs, prev_inc hc hs⟩⟩

end

section
/-! When an event halts a running station, and that the contracts of the collaborators let it come to none of these (R111, R147,
R213 to R215, R221, R224). -/

namespace Sys2Proof.Machine

open Sys2Proof
open Sys2Proof.Config (hw)

/-- R112: there is no entry to remove. -/
theorem forget_of_not_mem {x : Nat} {s : State} (h : x ∉ s.ledger) : forget x s = s := by
  rw [forget, List.erase_of_not_mem h]

/-- R101: the upper edge of a window is exclusive. -/
theorem inWindow_upper_edge (l h : Nat) : inWindow l h h = false := by
  rw [inWindow_eq_false_iff]
  omega

/-- R111, R141: the next number to send is not in flight, so that an admission never meets it in the ledger. -/
theorem SenderInv.nextFrameToSend_not_mem {c : Config} {s : State} (h : SenderInv c s) : s.nextFrameToSend ∉ s.ledger := by
  rw [h.ledger_mem, inWindow_upper_edge]
  simp

/-- R221: an armed timer is that of a frame in the ledger. -/
theorem TimersFit.ledger_ne_nil {c : Config} {l : List Nat} {e : Env} {i : Nat} (h : TimersFit c l e)
    (harmed : e.armed i = true) : l ≠ [] := by
  obtain ⟨x, hx, -⟩ := h.armed_inflight i harmed
  exact List.ne_nil_of_mem hx

/-- R215: what an event has to find so that its handler raises no fault. -/
def FaultFree (c : Config) (s : State) : Instr → Prop
  | .netReady _ _ => s.nbuffered ≠ c.W ∧ s.nextFrameToSend ∉ s.ledger
  | .dataTimeout _ => s.ledger ≠ []
  | _ => True

/-- R214, R215: a handler that finds what it has to leaves FAULT alone. -/
theorem handler_faultReg_of_faultFree {c : Config} {i : Instr} {s : State} (h : FaultFree c s i) :
    (handler c i s).faultReg = s.faultReg := by
  by_cases hnet : ∃ hd p, i = .netReady hd p
  · obtain ⟨hd, p, rfl⟩ := hnet
    obtain ⟨hroom, hfresh⟩ := h
    rcases admitPacket_cases c p s with ⟨hfull, -⟩ | ⟨-, hdouble, -⟩ | ⟨-, -, e⟩
    · exact absurd hfull hroom
    · exact absurd hdouble hfresh
    · simp [handler, e, admitEffects, sendData_eq]
  by_cases htimeout : ∃ hd, i = .dataTimeout hd
  · obtain ⟨hd, rfl⟩ := htimeout
    rcases timeoutRetransmit_cases c s with ⟨hempty, -⟩ | ⟨x, rest, -, e⟩
    · exact absurd hempty h
    · simp [handler, e, retransmit_eq]
  · exact (handler_admissionUntouched c (fun hd p e => hnet ⟨hd, p, e⟩) (not_exists.mp htimeout) s).faultReg

/-- R147, R221, R224: under the contracts a NET_READY finds room and a DATA_TIMEOUT finds a frame in flight. -/
theorem faultFree_of_allows {c : Config} {i : Instr} {s : State} (hs : s.Inv c) (h : s.env.allows i = true) :
    FaultFree c s i := by
  obtain ⟨hsend, -, -, htimers, hgate⟩ := inv_iff.mp hs
  cases i with
  | netReady _ _ => exact ⟨(hgate h).2.ne, hsend.nextFrameToSend_not_mem⟩
  | dataTimeout _ => exact htimers.ledger_ne_nil h
  | _ => trivial

/-- R82: the contracts allow no reserved opcode. -/
theorem isEvent_of_allows {i : Instr} {e : Env} (h : e.allows i = true) : isEvent i = true := by
  cases i with
  | reservedEvent5 _ _ => cases h
  | reservedEvent6 _ _ => cases h
  | reservedEvent7 _ _ => cases h
  | _ => rfl

/-- R12, R82: every event but a reserved opcode completes. -/
theorem exists_exec_eq_next {i : Instr} (h : isEvent i = true) (s : State) : ∃ t, exec i s = .next t := by
  cases i with
  | reservedEvent5 _ _ => cases h
  | reservedEvent6 _ _ => cases h
  | reservedEvent7 _ _ => cases h
  | _ => exact ⟨_, rfl⟩

/-- R190, R214: an event whose handler raises no fault leaves a running station running. -/
theorem exec_running {i : Instr} {s t : State} (hrun : s.running) (hfree : FaultFree hw s i) (h : exec i s = .next t) :
    t.running := by
  have hkept : (handler hw i (beginEvent s)).faultReg = s.faultReg := handler_faultReg_of_faultFree (s := beginEvent s) hfree
  exact exec_keeps (R := State.running) h (fun _ _ _ hu => hu) hrun ((congrArg FaultReg.halted hkept).trans hrun)

end Sys2Proof.Machine
end

section
/-! The obligations of the timer ledger family. -/

open Sys2Proof Sys2Proof.Machine

/-- Settles O47: a handler that the contracts allow, and that of PHY_READY and ACK_TIMEOUT in any case, raises no fault, and every
event keeps the invariants. -/
theorem contractKeepsTheStationRunning : Obligations.ContractKeepsTheStationRunning := by
  intro s i hs hrun hwf hi
  obtain ⟨hevent, hfree⟩ : isEvent i = true ∧ FaultFree Config.hw s i := by
    rcases hi with hallows | ⟨_, rfl⟩ | ⟨_, rfl⟩
    · exact ⟨isEvent_of_allows hallows, faultFree_of_allows hs hallows⟩
    · exact ⟨rfl, trivial⟩
    · exact ⟨rfl, trivial⟩
  obtain ⟨t, ht⟩ := exists_exec_eq_next hevent s
  exact ⟨t, ht, exec_running hrun hfree ht, exec_inv hs hwf ht⟩

/-- Settles O14: in a list without repeats, erasing the first entry equal to `x` filters `x` out. -/
theorem forgetRemovesTheOneEntry : Obligations.ForgetRemovesTheOneEntry := by
  intro x s hnodup
  have hgone : x ∉ (forget x s).ledger := hnodup.not_mem_erase
  refine ⟨?_, hgone, forget_of_not_mem, forget_of_not_mem hgone⟩
  rw [forget, hnodup.erase_eq_filter]

end

section
/-! The decoder as one chain of checks, the length and the bytes of encoded frames, and an event in closed form (R120, R123,
R190). -/

namespace Sys2Proof.Machine

open Sys2Proof
open Sys2Proof.Config (hw)

/-! ### The checks of the decoder -/

/-- R125: the last four bytes are the checksum of those before them. -/
abbrev ChecksumHolds (c : Config) (b : Bytes) : Prop :=
  c.cksum (b.take (b.length - 4)) = ckValue c.cksumOrder (b.drop (b.length - 4))

/-- R126: byte 0 is one of the three kind bytes. -/
abbrev KindKnown (c : Config) (b : Bytes) : Prop :=
  byteAt b 0 = c.kindData ∨ byteAt b 0 = c.kindAck ∨ byteAt b 0 = c.kindNak

/-- R127: the length is that of a frame of the kind. -/
abbrev LengthFits (c : Config) (b : Bytes) : Prop :=
  (byteAt b 0 = c.kindData → b.length = c.dataLen) ∧ (byteAt b 0 ≠ c.kindData → b.length = Config.ctrlLen)

/-- R128: the ack byte, and the seq byte of a DATA frame, are sequence numbers. -/
abbrev FieldsInRange (c : Config) (b : Bytes) : Prop :=
  (byteAt b 1).toNat ≤ c.maxSeq ∧ (byteAt b 0 = c.kindData → (byteAt b 2).toNat ≤ c.maxSeq)

/-- R129: the frame read from the fixed offsets of a byte string that has passed every check. -/
def parsedFrame (c : Config) (b : Bytes) : Frame :=
  if byteAt b 0 = c.kindData then .data (byteAt b 1).toNat (byteAt b 2).toNat ((b.drop 3).take c.pktLen)
  else if byteAt b 0 = c.kindAck then .ack (byteAt b 1).toNat
  else .nak (byteAt b 1).toNat

section Parsed

variable {c : Config} (hc : c.Legal) {b : Bytes}

theorem parsedFrame_of_kindData (hk : byteAt b 0 = c.kindData) :
    parsedFrame c b = .data (byteAt b 1).toNat (byteAt b 2).toNat ((b.drop 3).take c.pktLen) := if_pos hk

include hc

theorem parsedFrame_of_kindAck (hk : byteAt b 0 = c.kindAck) : parsedFrame c b = .ack (byteAt b 1).toNat := by
  simp [parsedFrame, hk, hc.data_ne_ack.symm]

theorem parsedFrame_of_kindNak (hk : byteAt b 0 = c.kindNak) : parsedFrame c b = .nak (byteAt b 1).toNat := by
  simp [parsedFrame, hk, hc.data_ne_nak.symm, hc.ack_ne_nak.symm]

end Parsed

/-- R123: the decoder's checks, the length of either sort of frame taken as one check (R127) and so the two sequence fields
(R128). -/
theorem decodeAndValidate_eq_checks (c : Config) (b : Bytes) :
    decodeAndValidate c b =
      if b.length < Config.minLen then .decodeError .short
      else if ¬ChecksumHolds c b then .decodeError .cksum
      else if ¬KindKnown c b then .malformed .kind
      else if ¬LengthFits c b then .malformed .length
      else if ¬FieldsInRange c b then .malformed .field
      else .ok (parsedFrame c b) := by
  unfold decodeAndValidate parsedFrame
  -- For a DATA frame only the first of the two length checks can fail, for a control frame only the second; the seq byte is
  -- read for a DATA frame alone.
  by_cases hdata : byteAt b 0 = c.kindData
  · simp [KindKnown, LengthFits, FieldsInRange, hdata, imp_iff_not_or, ite_or]
  · simp [KindKnown, LengthFits, FieldsInRange, hdata, apply_ite DecodeResult.ok]

section Checks

variable {c : Config} {b : Bytes}

theorem decodeAndValidate_of_short (hshort : b.length < Config.minLen) : decodeAndValidate c b = .decodeError .short := by
  rw [decodeAndValidate_eq_checks, if_pos hshort]

variable (hlen : Config.minLen ≤ b.length)
include hlen

theorem decodeAndValidate_of_not_checksumHolds (hsum : ¬ChecksumHolds c b) :
    decodeAndValidate c b = .decodeError .cksum := by
  rw [decodeAndValidate_eq_checks, if_neg hlen.not_gt, if_pos hsum]

variable (hsum : ChecksumHolds c b)
include hsum

theorem decodeAndValidate_of_not_kindKnown (hkind : ¬KindKnown c b) : decodeAndValidate c b = .malformed .kind := by
  rw [decodeAndValidate_eq_checks, if_neg hlen.not_gt, if_neg (not_not.mpr hsum), if_pos hkind]

variable (hkind : KindKnown c b)
include hkind

theorem decodeAndValidate_of_not_lengthFits (hfits : ¬LengthFits c b) : decodeAndValidate c b = .malformed .length := by
  rw [decodeAndValidate_eq_checks, if_neg hlen.not_gt, if_neg (not_not.mpr hsum), if_neg (not_not.mpr hkind), if_pos hfits]

variable (hfits : LengthFits c b)
include hfits

theorem decodeAndValidate_of_not_fieldsInRange (hrange : ¬FieldsInRange c b) :
    decodeAndValidate c b = .malformed .field := by
  rw [decodeAndValidate_eq_checks, if_neg hlen.not_gt, if_neg (not_not.mpr hsum), if_neg (not_not.mpr hkind),
    if_neg (not_not.mpr hfits), if_pos hrange]

theorem decodeAndValidate_of_fieldsInRange (hrange : FieldsInRange c b) :
    decodeAndValidate c b = .ok (parsedFrame c b) := by
  rw [decodeAndValidate_eq_checks, if_neg hlen.not_gt, if_neg (not_not.mpr hsum), if_neg (not_not.mpr hkind),
    if_neg (not_not.mpr hfits), if_neg (not_not.mpr hrange)]

end Checks

/-! ### Encoded frames -/

/-- R71: an encoded DATA frame has DATA_LEN bytes. -/
theorem encodeFrame_data_length {c : Config} {p : Packet} (hp : p.length = c.pktLen) (a x : Nat) :
    (encodeFrame c (.data a x p)).length = c.dataLen := by
  rw [encodeFrame_length, Config.dataLen, ← hp]
  simp [frameBody]
  omega

/-- R72: an encoded ACK frame has CTRL_LEN bytes. -/
theorem encodeFrame_ack_length (c : Config) (a : Nat) : (encodeFrame c (.ack a)).length = Config.ctrlLen :=
  encodeFrame_length c (.ack a)

/-- R73: an encoded NAK frame has CTRL_LEN bytes. -/
theorem encodeFrame_nak_length (c : Config) (a : Nat) : (encodeFrame c (.nak a)).length = Config.ctrlLen :=
  encodeFrame_length c (.nak a)

/-! ### Events in closed form -/

/-- R61, R190: what an event other than a reserved opcode does to the whole station. -/
theorem exec_of_isEvent {i : Instr} (h : isEvent i = true) (s : State) :
    exec i s = .next { coreAfter i s with env := envAfter i (coreAfter i s).out s.env } := by
  obtain ⟨t, ht⟩ := exists_exec_eq_next h s
  rw [ht, ← exec_eq_next ht]

/-- R190, R196: an event whose handler does nothing leaves the gate command alone. -/
theorem exec_of_handled_eq_beginEvent {i : Instr} {s : State} (h : isEvent i = true) (hidle : handled i s = beginEvent s) :
    exec i s = .next { s with
      out := [gateCommand hw i.header.phl s.faultReg.halted s.nbuffered]
      env := envAfter i [gateCommand hw i.header.phl s.faultReg.halted s.nbuffered] s.env } := by
  rw [exec_of_isEvent h, coreAfter_eq, hidle]
  rfl

/-- R190: a running station handles its event. -/
theorem handled_of_running {s : State} (h : s.running) (i : Instr) : handled i s = handler hw i (beginEvent s) :=
  if_neg (Bool.eq_false_iff.mp h)

/-- R193: a malformed byte string is discarded. -/
theorem frameReceived_of_malformed {c : Config} {b : Bytes} {e : MalformedCause}
    (h : decodeAndValidate c b = .malformed e) (s : State) : frameReceived c b s = s := by
  rw [frameReceived, h]

end Sys2Proof.Machine
end

section
/-! The obligations of the frame codec family. -/

open Sys2Proof Sys2Proof.Machine
open Sys2Proof.Config (hw)

/-- Settles O5: a frame in range survives its encoding, and a byte string with a frame in it is cut by the decoder into just the
body and the checksum that the encoder puts together. -/
theorem frameCodecRoundTrip : Obligations.FrameCodecRoundTrip :=
  fun _ hc => ⟨fun _ => decodeAndValidate_encodeFrame hc,
    fun _ _ hb => ⟨decodeAndValidate_wf hb, encodeFrame_of_decodeAndValidate hb⟩⟩

/-- Settles O6: the bytes are those of the encoder's definition, and the checksum adds its four to the length of the body. -/
theorem encodedFrameBytes : Obligations.EncodedFrameBytes :=
  ⟨fun _ => ⟨rfl, rfl⟩, ckValue_ckBytes, fun o _ => ckBytes_ckValue o, fun a x _ hp =>
    ⟨rfl, encodeFrame_data_length hp a x, rfl, encodeFrame_ack_length hw a, rfl, encodeFrame_nak_length hw a⟩⟩

/-- Settles O7: a clause for each check that can fail first; a byte string that passes all of them is parsed by its kind. -/
theorem firstFailingCheckDecides : Obligations.FirstFailingCheckDecides := by
  intro b
  refine ⟨decodeAndValidate_of_short, decodeAndValidate_of_not_checksumHolds, decodeAndValidate_of_not_kindKnown,
    decodeAndValidate_of_not_lengthFits, decodeAndValidate_of_not_fieldsInRange, fun hlen hsum hfits hrange => ?_⟩
  have hparsed (hkind : KindKnown hw b) : decodeAndValidate hw b = .ok (parsedFrame hw b) :=
    decodeAndValidate_of_fieldsInRange hlen hsum hkind hfits hrange
  refine ⟨fun hk => ?_, fun hk => ?_, fun hk => ?_⟩
  · rw [hparsed (.inl hk), parsedFrame_of_kindData hk]
  · rw [hparsed (.inr (.inl hk)), parsedFrame_of_kindAck Config.hw_legal hk]
  · rw [hparsed (.inr (.inr hk)), parsedFrame_of_kindNak Config.hw_legal hk]

/-- Settles O24: the handler of a malformed byte string does nothing, which leaves the gate command. -/
theorem malformedFrameEvent : Obligations.MalformedFrameEvent := by
  intro h b e s hrun hb
  have hdiscard : handled (.frameRx h b) s = beginEvent s :=
    (handled_of_running hrun _).trans (frameReceived_of_malformed hb _)
  have hhalted : s.faultReg.halted = false := hrun
  rw [exec_of_handled_eq_beginEvent rfl hdiscard, hhalted]
  rfl

end

section
/-! The release and the retransmission as events: what a running station's handler leaves, with the gate command behind it, and
the closed forms of R142 and R143 in the terms of the statements. -/

namespace Sys2Proof.Machine

open Sys2Proof
open Sys2Proof.Config (hw)

/-! ### Events of a running station -/

/-- R190, R196: an event on a running station is its handler's result with the gate command behind it. -/
theorem exec_of_handler_eq {i : Instr} {s u : State} (h : isEvent i = true) (hrun : s.running)
    (hu : handler hw i (beginEvent s) = u) :
    exec i s = .next { u with
      out := u.out ++ [gateCommand hw i.header.phl u.faultReg.halted u.nbuffered]
      env := envAfter i (u.out ++ [gateCommand hw i.header.phl u.faultReg.halted u.nbuffered]) s.env } := by
  rw [exec_of_isEvent h, coreAfter_eq, handled_of_running hrun, hu]

/-- R197, R215: an event whose handler raises a fault leaves FAULT and SUSPEND_ADMISSION alone. -/
theorem exec_of_handler_eq_raiseFault {i : Instr} {s : State} {k : FaultCause} (h : isEvent i = true) (hrun : s.running)
    (hk : handler hw i (beginEvent s) = raiseFault k (beginEvent s)) :
    exec i s = .next { s with
      faultReg := ⟨true, k⟩, out := [.suspendAdmission], env := envAfter i [.suspendAdmission] s.env } := by
  have hgate : gateCommand hw i.header.phl true s.nbuffered = .suspendAdmission := by simp [gateCommand]
  rw [exec_of_handler_eq h hrun hk]
  simp [hgate, raiseFault, beginEvent]

theorem State.Wf.beginEvent {c : Config} {s : State} (h : s.Wf c) : (beginEvent s).Wf c := { h with }

/-! ### AckRelease and NakRetransmit -/

section Release

variable {c : Config} {a : Nat} {s : State}

/-- R142: the first number that a release leaves in flight is the one after the acked value, if the release does anything. -/
theorem seqPlus_releaseCount (hc : c.Legal) (ha : a < c.M) (hs : s.ackExpected < c.M) :
    seqPlus c s.ackExpected (releaseCount c a s) =
      if inWindow s.ackExpected a s.nextFrameToSend then inc c a else s.ackExpected := by
  unfold releaseCount
  split
  · rw [← inc_seqPlus, seqPlus_dist hc hs ha]
  · exact seqPlus_zero hs

/-- R142: `AckRelease(a)` in the terms of the statements. -/
theorem ackRelease_eq_of_wf (hc : c.Legal) (hs : s.Wf c) (ha : a < c.M) :
    ackRelease c a s = { s with
      ackExpected := if inWindow s.ackExpected a s.nextFrameToSend then inc c a else s.ackExpected
      nbuffered := s.nbuffered - releaseCount c a s
      ledger := releaseLedger c a s
      out := s.out ++ releaseStops c a s } := by
  rw [ackRelease_eq hc ha hs.ackExpected_lt hs.nextFrameToSend_lt hs.ledger_lt hs.ledger_nodup,
    ← seqPlus_releaseCount hc ha hs.ackExpected_lt]
  rfl

/-- R142: an ack value outside the window releases nothing. -/
theorem ackRelease_of_not_inWindow (h : inWindow s.ackExpected a s.nextFrameToSend = false) : ackRelease c a s = s := by
  unfold ackRelease
  cases c.M with
  | zero => rfl
  | succ k => rw [ackReleaseLoop, h]; rfl

/-- R143: whether the frame a NAK asks for is in flight is the same before the release and after it. -/
theorem inWindow_inc_of_released (ha : a < c.M) (hf : s.nextFrameToSend < c.M) :
    inWindow (if inWindow s.ackExpected a s.nextFrameToSend then inc c a else s.ackExpected) (inc c a) s.nextFrameToSend =
      inWindow s.ackExpected (inc c a) s.nextFrameToSend := by
  split
  next hin =>
    rw [Bool.eq_iff_iff, inWindow_iff, inWindow_iff, inc_eq ha]
    rw [inWindow_iff] at hin
    split_ifs <;> omega
  next => rfl

end Release

end Sys2Proof.Machine
end

section
/-! The obligations of the sender window family. -/

open Sys2Proof Sys2Proof.Machine
open Sys2Proof.Config (hw)

/-- Settles O26: the handler of an ACK frame is the release, of which R142 has the closed form. -/
theorem ackFrameEvent : Obligations.AckFrameEvent := by
  intro h a s hs hrun ha
  have hhalted : s.faultReg.halted = false := hrun
  have hrelease := ackRelease_eq_of_wf Config.hw_legal hs.beginEvent ha
  rw [exec_of_handler_eq (i := .frameRxAck h a) rfl hrun hrelease]
  simp only [beginEvent_fields, hhalted, List.nil_append]
  rfl

/-- Settles O27: after the release, which does not change whether the frame asked for is in flight, that frame is retransmitted
or nothing is. -/
theorem nakFrameEvent : Obligations.NakFrameEvent := by
  intro h a s hs hrun ha
  have hhalted : s.faultReg.halted = false := hrun
  have hrelease := ackRelease_eq_of_wf Config.hw_legal hs.beginEvent ha
  have hasked := inWindow_inc_of_released ha hs.nextFrameToSend_lt
  have hcases := nakRetransmit_cases hw a (ackRelease hw a (beginEvent s))
  simp only [hrelease, beginEvent_fields, hasked] at hcases
  rcases hcases with ⟨hin, hnak⟩ | ⟨hout, hnak⟩
  · have hhandler := (congrArg (nakRetransmit hw a) hrelease).trans (hnak.trans (retransmit_eq hw (inc hw a) _))
    rw [exec_of_handler_eq (i := .frameRxNak h a) rfl hrun hhandler]
    simp only [hhalted, hin, List.nil_append, if_true]
    rfl
  · have hhandler := (congrArg (nakRetransmit hw a) hrelease).trans hnak
    rw [exec_of_handler_eq (i := .frameRxNak h a) rfl hrun hhandler]
    simp only [hhalted, hout, List.nil_append, List.append_nil, Bool.false_eq_true, if_false]
    rfl

/-- Settles O43: the first ACK frame leaves its ack value outside the window. -/
theorem repeatedAckReleasesNothing : Obligations.RepeatedAckReleasesNothing := by
  intro h h' a s t hs hrun ha ht
  have hout : inWindow t.ackExpected a t.nextFrameToSend = false := by
    have hdone := ackRelease_done Config.hw_legal ha hs.ackExpected_lt hs.nextFrameToSend_lt hs.ledger_lt hs.ledger_nodup
    rw [ackRelease_eq_of_wf Config.hw_legal hs ha] at hdone
    rw [ackFrameEvent h a s hs hrun ha] at ht
    cases ht
    exact hdone
  have hrun' : t.running := exec_running (i := .frameRxAck h a) hrun trivial ht
  have hhalted : t.faultReg.halted = false := hrun'
  have hidle : handled (.frameRxAck h' a) t = beginEvent t :=
    (handled_of_running hrun' _).trans (ackRelease_of_not_inWindow hout)
  rw [exec_of_handled_eq_beginEvent rfl hidle, hhalted]
  rfl

/-- Settles O19: the three cases of `Admit`. -/
theorem netReadyEvent : Obligations.NetReadyEvent := by
  intro h p s hrun hlen
  have hhalted : s.faultReg.halted = false := hrun
  have hslot : slot hw s.nextFrameToSend < s.outBuf.length := hlen ▸ slot_lt Config.hw_legal _
  refine ⟨fun hfull => ?_, fun hroom hdouble => ?_, fun hroom hfresh => ?_⟩
  · exact exec_of_handler_eq_raiseFault rfl hrun (if_pos hfull)
  · exact exec_of_handler_eq_raiseFault rfl hrun ((if_neg hroom).trans (if_pos hdouble))
  · have hadmit : handler hw (.netReady h p) (beginEvent s) = admitEffects hw p (beginEvent s) :=
      (if_neg hroom).trans (if_neg hfresh)
    rw [exec_of_handler_eq rfl hrun (hadmit.trans (admitEffects_eq hw p (beginEvent s) hslot))]
    simp only [beginEvent_fields, hhalted, List.nil_append]
    rfl

/-- Settles O22: the head of the ledger is erased and recorded again, at the tail. -/
theorem dataTimeoutEvent : Obligations.DataTimeoutEvent := by
  intro h s hrun
  have hhalted : s.faultReg.halted = false := hrun
  refine ⟨fun hempty => ?_, fun x rest hled => ?_⟩
  · have hfault : handler hw (.dataTimeout h) (beginEvent s) = raiseFault .timeoutNoPending (beginEvent s) := by
      simp [handler, timeoutRetransmit, oldest, hempty]
    exact exec_of_handler_eq_raiseFault rfl hrun hfault
  · have hhead : handler hw (.dataTimeout h) (beginEvent s) = retransmit hw x (beginEvent s) := by
      simp [handler, timeoutRetransmit, oldest, hled]
    rw [exec_of_handler_eq rfl hrun (hhead.trans (retransmit_eq hw x (beginEvent s)))]
    simp only [beginEvent_fields, hhalted, hled, List.erase_cons_head, List.nil_append]
    rfl

end

section
/-! A received DATA frame in closed form (R160 to R163, with the acknowledgement of R142 behind it), and the three cases it can
be in: the expected frame, one ahead in the window, one that is dropped. -/

namespace Sys2Proof.Machine

open Sys2Proof
open Sys2Proof.Config (hw)

theorem ReceiverInv.beginEvent {c : Config} {s : State} (h : ReceiverInv c s) : ReceiverInv c (beginEvent s) :=
  h.congr rfl rfl rfl rfl

/-! ### The NAK or the ack-delay timer, and a decode error -/

/-- R164: a decode error leaves a NAK pending, whether it draws one or finds one. -/
theorem decodeErrorArrive_eq (c : Config) (s : State) :
    decodeErrorArrive c s = { s with
      noNak := false
      out := s.out ++ if s.noNak then [.tx (encodeFrame c (.nak (prev c s.frameExpected)))] else [] } := by
  unfold decodeErrorArrive
  cases hnak : s.noNak
  · simp only [Bool.false_eq_true, if_false, List.append_nil]
    rw [← hnak]
  · rfl

/-- R193: a byte string of which no frame can be read. -/
theorem frameReceived_of_decodeError {c : Config} {b : Bytes} {e : DecodeErrorCause}
    (h : decodeAndValidate c b = .decodeError e) (s : State) : frameReceived c b s = decodeErrorArrive c s := by
  rw [frameReceived, h]

/-- R160: a frame that is not the expected one leaves a NAK pending; if one was, it arms the ack-delay timer. -/
theorem nakOrDelay_of_ne {c : Config} {x : Nat} {s : State} (hne : x ≠ s.frameExpected) :
    nakOrDelay c x s = { s with
      noNak := false
      out := s.out ++
        if s.noNak then [.tx (encodeFrame c (.nak (prev c s.frameExpected)))] else [.startAckTimer] } := by
  unfold nakOrDelay
  cases hnak : s.noNak
  · simp only [Bool.false_eq_true, and_false, if_false, emit]
    rw [← hnak]
  · exact if_pos ⟨hne, rfl⟩

/-- R160: the expected frame arms the ack-delay timer. -/
theorem nakOrDelay_frameExpected (c : Config) (s : State) : nakOrDelay c s.frameExpected s = emit .startAckTimer s :=
  if_neg fun h => h.1 rfl

/-! ### The event -/

/-- R142: what `AckRelease` does after operations that leave the sender alone, in terms of the state before them. -/
theorem ackRelease_eq_of_sameSender {c : Config} (hc : c.Legal) {a : Nat} {s u : State} (hs : s.Wf c)
    (hu : SameSender s u) (ha : a < c.M) :
    ackRelease c a u = { u with
      ackExpected := if inWindow s.ackExpected a s.nextFrameToSend then inc c a else s.ackExpected
      nbuffered := s.nbuffered - releaseCount c a s
      ledger := releaseLedger c a s
      out := u.out ++ releaseStops c a s } := by
  obtain ⟨hae, hnf, hnb, -, hled⟩ := hu
  have hcount : releaseCount c a u = releaseCount c a s := by simp only [releaseCount, hae, hnf]
  rw [ackRelease_eq hc ha (hae ▸ hs.ackExpected_lt) (hnf ▸ hs.nextFrameToSend_lt) (hled ▸ hs.ledger_lt)
    (hled ▸ hs.ledger_nodup), ← seqPlus_releaseCount hc ha hs.ackExpected_lt]
  simp only [releaseMany, releaseLedger, releaseStops, hcount, hae, hnb, hled]

/-- R163, R193: a DATA frame on a running station is the receiver's part, the release and the gate command. -/
theorem exec_frameRxData_eq {h : Header} {a x : Nat} {p : Packet} {s u : State} (hs : s.Wf hw) (hrun : s.running)
    (ha : a < hw.M) (hu : dataArrive hw x p (beginEvent s) = u) :
    let ks := u.out ++ releaseStops hw a s ++ [gateCommand hw h.phl false (s.nbuffered - releaseCount hw a s)]
    exec (.frameRxData h a x p) s = .next { u with
      ackExpected := if inWindow s.ackExpected a s.nextFrameToSend then inc hw a else s.ackExpected
      nbuffered := s.nbuffered - releaseCount hw a s
      ledger := releaseLedger hw a s
      out := ks
      env := envAfter (.frameRxData h a x p) ks s.env } := by
  have hsender : SameSender s u := hu ▸ (LeavesSender.dataArrive Config.hw_legal x p _).toSameSender.of_beginEvent
  have hhalted : u.faultReg.halted = false := by
    rw [← hu, (AdmissionUntouched.dataArrive hw x p (beginEvent s)).faultReg]
    exact hrun
  have hhandler := (congrArg (ackRelease hw a) hu).trans (ackRelease_eq_of_sameSender Config.hw_legal hs hsender ha)
  rw [exec_of_handler_eq (i := .frameRxData h a x p) rfl hrun hhandler]
  simp only [hhalted]
  rfl

/-! ### Operations that keep the window -/

/-- `u` comes from `s` by operations that keep the receiver's window, bitmap and buffer and deliver no packet: those of
`LeavesReceiver`, and a NAK, which writes `no_nak`. -/
structure KeepsWindow (s u : State) : Prop where
  frameExpected : u.frameExpected = s.frameExpected
  tooFar : u.tooFar = s.tooFar
  arrived : u.arrived = s.arrived
  inBuf : u.inBuf = s.inBuf
  out : ∃ ks, u.out = s.out ++ ks ∧ ∀ k ∈ ks, k.isDeliver = false

namespace KeepsWindow

variable {s u v : State} (c : Config)

theorem refl (s : State) : KeepsWindow s s := ⟨rfl, rfl, rfl, rfl, [], by simp, by simp⟩

theorem of_leavesReceiver (h : LeavesReceiver s u) : KeepsWindow s u :=
  ⟨h.frameExpected, h.tooFar, h.arrived, h.inBuf, h.out⟩

theorem trans (h : KeepsWindow s u) (h' : KeepsWindow u v) : KeepsWindow s v := by
  obtain ⟨hf, ht, ha, hb, ks, hks, hquiet⟩ := h
  obtain ⟨hf', ht', ha', hb', ls, hls, hquiet'⟩ := h'
  refine ⟨hf'.trans hf, ht'.trans ht, ha'.trans ha, hb'.trans hb, ks ++ ls, ?_, ?_⟩
  · rw [hls, hks, List.append_assoc]
  · intro k hk
    exact (List.mem_append.mp hk).elim (hquiet k) (hquiet' k)

theorem sendNak (s : State) : KeepsWindow s (sendNak c s) := ⟨rfl, rfl, rfl, rfl, _, rfl, by simp [Command.isDeliver]⟩

theorem decodeErrorArrive (s : State) : KeepsWindow s (decodeErrorArrive c s) := by
  unfold Machine.decodeErrorArrive
  split
  · exact sendNak c s
  · exact refl s

theorem nakOrDelay (x : Nat) (s : State) : KeepsWindow s (nakOrDelay c x s) := by
  rcases nakOrDelay_cases c x s with ⟨-, -, e⟩ | ⟨-, e⟩ <;> rw [e]
  · exact sendNak c s
  · exact of_leavesReceiver (.emit rfl s)

/-- R61: the deliveries of an event so far are those before the operation. -/
theorem countP_isDeliver (h : KeepsWindow s u) : u.out.countP Command.isDeliver = s.out.countP Command.isDeliver := by
  obtain ⟨ks, hks, hquiet⟩ := h.out
  have hnone : ks.countP Command.isDeliver = 0 :=
    List.countP_eq_zero.mpr fun k hk => Bool.eq_false_iff.mp (hquiet k hk)
  rw [hks, List.countP_append, hnone, Nat.add_zero]

end KeepsWindow

/-! ### A frame that is not the expected one -/

/-- R161: the number `x` is outside the window or its frame is already buffered, so that a DATA frame with it is dropped. -/
def Refuses (c : Config) (x : Nat) (s : State) : Prop :=
  inWindow s.frameExpected x s.tooFar = false ∨ arrivedBit (slot c x) s = true

theorem Refuses.of_keepsWindow {c : Config} {x : Nat} {s u : State} (h : Refuses c x s) (hu : KeepsWindow s u) :
    Refuses c x u := by
  unfold Refuses arrivedBit
  rw [hu.frameExpected, hu.tooFar, hu.arrived]
  exact h

theorem acceptFrame_of_refuses {c : Config} {x : Nat} {p : Packet} {s : State} (h : Refuses c x s) :
    acceptFrame c x p s = s := by
  refine if_neg fun ⟨hin, hnew⟩ => ?_
  rcases h with hout | hold
  · exact Bool.false_ne_true (hout.symm.trans hin)
  · exact Bool.false_ne_true (hnew.symm.trans hold)

/-- R161: a frame that is dropped is only answered. -/
theorem dataArrive_of_refuses {c : Config} {x : Nat} {p : Packet} {s : State} (h : Refuses c x s) :
    dataArrive c x p s = nakOrDelay c x s := acceptFrame_of_refuses (h.of_keepsWindow (.nakOrDelay c x s))

/-- R161: a new frame ahead in the window is answered and buffered. -/
theorem dataArrive_of_ahead {c : Config} (hc : c.Legal) {x : Nat} {s : State} (h : ReceiverInv c s) (hx : x < c.M)
    (hne : x ≠ s.frameExpected) (hin : inWindow s.frameExpected x s.tooFar = true)
    (hnew : arrivedBit (slot c x) s = false) (p : Packet) :
    dataArrive c x p s = bufferFrame c x p (nakOrDelay c x s) := by
  have hinv := h.nakOrDelay x
  unfold dataArrive
  rw [nakOrDelay_of_ne hne] at hinv ⊢
  exact (if_pos ⟨hin, hnew⟩).trans (drain_bufferFrame_of_ne hc hinv hx hne hin p)

/-! ### The expected frame -/

section Expected

variable {c : Config} (hc : c.Legal) {s : State} (h : ReceiverInv c s) (p : Packet)
include hc h

/-- R37: the expected number is in the window. -/
theorem inWindow_frameExpected : inWindow s.frameExpected s.frameExpected s.tooFar = true := by
  have hM := hc.M_eq
  have hW := hc.W_pos
  have hf := h.frameExpected_lt
  rw [h.receiver, tooFar_eq_seqPlus, seqPlus_eq hf (by omega), inWindow_iff]
  split_ifs <;> omega

omit h in
/-- R42: the W − 1 numbers after the expected one have other slots than it. -/
theorem slot_seqPlus_ne {x j : Nat} (hx : x < c.M) (hj0 : 0 < j) (hj : j < c.W) :
    slot c x ≠ slot c (seqPlus c x j) := by
  intro hslot
  have hzero := slot_seqPlus_inj hc hx hc.W_pos hj ((congrArg (slot c) (seqPlus_zero hx)).trans hslot)
  omega

/-- R161, R162: the drain after the expected frame delivers it and then what is buffered behind it, up to the first gap. -/
theorem rounds_of_drainRounds_bufferFrame {k : Nat} (hk : DrainRounds c c.W k (bufferFrame c s.frameExpected p s)) :
    1 ≤ k ∧ k ≤ c.W ∧ (∀ j, 1 ≤ j → j < k → arrivedBit (slot c (seqPlus c s.frameExpected j)) s = true) ∧
      (k < c.W → arrivedBit (slot c (seqPlus c s.frameExpected k)) s = false) := by
  obtain ⟨hle, hset, hfree⟩ := hk
  have hlater {j : Nat} (hj0 : 1 ≤ j) (hj : j < c.W) :
      arrivedBit (slot c (seqPlus c s.frameExpected j)) (bufferFrame c s.frameExpected p s) =
        arrivedBit (slot c (seqPlus c s.frameExpected j)) s :=
    arrivedBit_setArrived_ne s true (slot_seqPlus_ne hc h.frameExpected_lt hj0 hj)
  have hk0 : 1 ≤ k := by
    refine Nat.pos_of_ne_zero fun hzero => ?_
    have hset0 : arrivedBit (slot c s.frameExpected) (bufferFrame c s.frameExpected p s) = true :=
      arrivedBit_setArrived true (h.arrived_length ▸ slot_lt hc _)
    have hfree0 : arrivedBit (slot c (seqPlus c s.frameExpected k)) (bufferFrame c s.frameExpected p s) = false :=
      hfree (hzero ▸ hc.W_pos)
    rw [hzero, seqPlus_zero h.frameExpected_lt, hset0] at hfree0
    cases hfree0
  exact ⟨hk0, hle, fun j hj0 hj => (hlater hj0 (Nat.lt_of_lt_of_le hj hle)).symm.trans (hset j hj),
    fun hk => (hlater hk0 hk).symm.trans (hfree hk)⟩

/-- R162: the packets that the drain reads from the buffer. -/
theorem map_memRead_bufferFrame {k : Nat} (hk0 : 1 ≤ k) (hk : k ≤ c.W) :
    (List.range k).map (fun j =>
      memRead .inBuf (slot c (seqPlus c s.frameExpected j)) (bufferFrame c s.frameExpected p s)) =
      drainPackets c k p s := by
  obtain ⟨m, rfl⟩ := Nat.exists_eq_add_of_le' hk0
  have hfirst : memRead .inBuf (slot c s.frameExpected) (bufferFrame c s.frameExpected p s) = p :=
    memRead_memWrite_inBuf p (h.inBuf_length ▸ slot_lt hc _)
  have hlater : ∀ j ∈ List.range m,
      memRead .inBuf (slot c (seqPlus c s.frameExpected (j + 1))) (bufferFrame c s.frameExpected p s) =
        memRead .inBuf (slot c (seqPlus c s.frameExpected (j + 1))) s := fun j hj => by
    have hjm := List.mem_range.mp hj
    exact memRead_memWrite_inBuf_ne _ p (slot_seqPlus_ne hc h.frameExpected_lt (Nat.succ_pos j) (by omega))
  rw [List.range_succ_eq_map, List.map_cons, List.map_map, seqPlus_zero h.frameExpected_lt, hfirst]
  exact congrArg (p :: ·) (List.map_congr_left hlater)

/-- R160 to R163: the expected frame is buffered and drained with what is behind it. -/
theorem dataArrive_frameExpected {k : Nat} (hk : DrainRounds c c.W k (bufferFrame c s.frameExpected p s)) :
    dataArrive c s.frameExpected p s = { s with
      frameExpected := seqPlus c s.frameExpected k
      tooFar := seqPlus c s.tooFar k
      noNak := true
      arrived := clearRun c s.frameExpected k (s.arrived.set (slot c s.frameExpected) true)
      inBuf := s.inBuf.set (slot c s.frameExpected) p
      out := s.out ++ [.startAckTimer] ++ (drainPackets c k p s).flatMap fun q => [.deliver q, .startAckTimer] } := by
  obtain ⟨hk0, hle, -⟩ := rounds_of_drainRounds_bufferFrame hc h p hk
  have haccept : acceptFrame c s.frameExpected p (emit .startAckTimer s) =
      drain c (bufferFrame c s.frameExpected p (emit .startAckTimer s)) :=
    if_pos ⟨inWindow_frameExpected (s := s) hc h, h.expected_not_arrived⟩
  have hpos : decide (0 < k) = true := decide_eq_true hk0
  rw [dataArrive, nakOrDelay_frameExpected, haccept,
    drain_eq hc (s := bufferFrame c s.frameExpected p (emit .startAckTimer s)) h.frameExpected_lt h.tooFar_lt hk,
    ← map_memRead_bufferFrame hc h p hk0 hle, List.flatMap_map]
  simp only [drainMany, hpos, Bool.or_true]
  rfl

omit hc in
/-- R162: the flags after the drain: those of the delivered numbers are cleared, the others are as before the frame came. -/
theorem arrivedBit_clearRun_bufferFrame {k : Nat} (hk0 : 1 ≤ k) (i : Nat) :
    (clearRun c s.frameExpected k (s.arrived.set (slot c s.frameExpected) true)).getD i false =
      (arrivedBit i s && !decide (∃ j, j < k ∧ slot c (seqPlus c s.frameExpected j) = i)) := by
  rw [clearRun_getD]
  by_cases hi : slot c s.frameExpected = i
  · have hcleared : ∃ j, j < k ∧ slot c (seqPlus c s.frameExpected j) = i :=
      ⟨0, hk0, (congrArg (slot c) (seqPlus_zero h.frameExpected_lt)).trans hi⟩
    simp [hcleared]
  · exact congrArg (· && _) (arrivedBit_setArrived_ne s true hi)

end Expected

end Sys2Proof.Machine
end

section
/-! What every event keeps of the receiver: its window moves by the deliveries (R162), a frame that has come is refused when it
comes again (R161), and no NAK is sent while one is pending (R165, R180). -/

namespace Sys2Proof.Machine

open Sys2Proof
open Sys2Proof.Config (hw)

/-- R196: the gate command is no delivery and writes no register. -/
theorem keepsWindow_coreAfter (i : Instr) (s : State) : KeepsWindow (handled i s) (coreAfter i s) := by
  rw [coreAfter_eq]
  exact .of_leavesReceiver (.emit (gateCommand_isDeliver _ _ _ _) _)

/-- R52, R53, R164: every event but a DATA frame. -/
theorem handler_keepsWindow {c : Config} {i : Instr} (hwf : i.wf c = true)
    (hdata : ∀ h a x p, i ≠ .frameRxData h a x p) (s : State) : KeepsWindow s (handler c i s) := by
  by_cases hrx : ∃ h b, i = .frameRx h b
  · obtain ⟨h, b, rfl⟩ := hrx
    exact frameReceived_of_wf hwf (.refl s) (.decodeErrorArrive c s)
  · exact .of_leavesReceiver (handler_leavesReceiver c (fun h b e => hrx ⟨h, b, e⟩) hdata s)

/-! ### A frame that comes again -/

/-- R37, R162: a number that has been delivered with up to W − 1 others behind it is below the window. -/
theorem inWindow_of_delivered {c : Config} (hc : c.Legal) {fe k : Nat} (hf : fe < c.M) (hk0 : 1 ≤ k) (hk : k ≤ c.W) :
    inWindow (seqPlus c fe k) fe (seqPlus c ((fe + c.W) % c.M) k) = false := by
  have hM := hc.M_eq
  rw [inWindow_eq_false_iff, tooFar_eq_seqPlus, seqPlus_eq (seqPlus_lt hc fe c.W) (by omega), seqPlus_eq hf (by omega),
    seqPlus_eq hf (by omega)]
  split_ifs <;> omega

/-- R161: whatever a DATA frame finds, the station refuses its number afterwards: it is below the window, or it is buffered, or
it was refused already. -/
theorem refuses_dataArrive {c : Config} (hc : c.Legal) {x : Nat} {s : State} (h : ReceiverInv c s) (hx : x < c.M)
    (p : Packet) : Refuses c x (dataArrive c x p s) := by
  by_cases hold : Refuses c x s
  · rw [dataArrive_of_refuses hold]
    exact hold.of_keepsWindow (.nakOrDelay c x s)
  by_cases hne : x = s.frameExpected
  · subst hne
    obtain ⟨k, hk⟩ := exists_drainRounds (c := c) c.W (bufferFrame c s.frameExpected p s)
    obtain ⟨hk0, hle, -⟩ := rounds_of_drainRounds_bufferFrame hc h p hk
    rw [dataArrive_frameExpected hc h p hk]
    refine .inl ?_
    simp only [h.receiver]
    exact inWindow_of_delivered hc h.frameExpected_lt hk0 hle
  · simp only [Refuses, not_or, Bool.not_eq_false, Bool.not_eq_true] at hold
    obtain ⟨hin, hnew⟩ := hold
    rw [dataArrive_of_ahead hc h hx hne hin hnew p]
    exact .inr (arrivedBit_setArrived true ((h.nakOrDelay x).arrived_length ▸ slot_lt hc x))

/-! ### The window and the deliveries -/

/-- R161, R162: the second part of an arrival is a drain of at most W rounds, none of them if the frame is dropped. -/
theorem exists_acceptFrame_eq_drainMany {c : Config} (hc : c.Legal) (x : Nat) (p : Packet) {s : State}
    (hf : s.frameExpected < c.M) (ht : s.tooFar < c.M) :
    ∃ k v, k ≤ c.W ∧ acceptFrame c x p s = drainMany c k v ∧
      v.frameExpected = s.frameExpected ∧ v.tooFar = s.tooFar ∧ v.noNak = s.noNak ∧ v.out = s.out := by
  rcases acceptFrame_cases c x p s with ⟨-, -, e⟩ | ⟨-, e⟩ <;> rw [e]
  · obtain ⟨k, hk⟩ := exists_drainRounds (c := c) c.W (bufferFrame c x p s)
    exact ⟨k, _, hk.1, drain_eq hc (s := bufferFrame c x p s) hf ht hk, rfl, rfl, rfl, rfl⟩
  · exact ⟨0, s, Nat.zero_le _, (drainMany_zero hf ht).symm, rfl, rfl, rfl, rfl⟩

/-- In the course of an event that found the window's edges at `fe` and `tf`: they have advanced by the deliveries so far. -/
structure WindowFollows (c : Config) (fe tf : Nat) (s : State) : Prop where
  frameExpected : s.frameExpected = seqPlus c fe (s.out.countP Command.isDeliver)
  tooFar : s.tooFar = seqPlus c tf (s.out.countP Command.isDeliver)

namespace WindowFollows

variable {c : Config} {fe tf : Nat} {s u : State}

theorem of_keepsWindow (h : WindowFollows c fe tf s) (hu : KeepsWindow s u) : WindowFollows c fe tf u := by
  constructor
  · rw [hu.frameExpected, hu.countP_isDeliver, h.frameExpected]
  · rw [hu.tooFar, hu.countP_isDeliver, h.tooFar]

/-- R162: each round delivers one packet and advances both edges by one. -/
theorem drainMany (h : WindowFollows c fe tf s) (k : Nat) : WindowFollows c fe tf (drainMany c k s) := by
  have hcount : (Machine.drainMany c k s).out.countP Command.isDeliver = s.out.countP Command.isDeliver + k := by
    have hround (q : Packet) : [Command.deliver q, .startAckTimer].countP Command.isDeliver = 1 := rfl
    simp [Machine.drainMany, List.countP_flatMap, Function.comp_def, hround]
  constructor
  · rw [hcount]
    simp only [Machine.drainMany, h.frameExpected, seqPlus, Nat.mod_add_mod, Nat.add_assoc]
  · rw [hcount]
    simp only [Machine.drainMany, h.tooFar, seqPlus, Nat.mod_add_mod, Nat.add_assoc]

theorem dataArrive (hc : c.Legal) (h : WindowFollows c fe tf s) (x : Nat) (p : Packet) :
    WindowFollows c fe tf (dataArrive c x p s) := by
  have hfirst := h.of_keepsWindow (.nakOrDelay c x s)
  obtain ⟨k, v, -, he, hf, ht, -, hout⟩ := exists_acceptFrame_eq_drainMany hc x p
    (hfirst.frameExpected ▸ seqPlus_lt hc _ _) (hfirst.tooFar ▸ seqPlus_lt hc _ _)
  rw [Machine.dataArrive, he]
  exact drainMany ⟨by rw [hf, hout]; exact hfirst.frameExpected, by rw [ht, hout]; exact hfirst.tooFar⟩ k

end WindowFollows

/-- R162: the handler of every well-formed event. -/
theorem handler_windowFollows {c : Config} (hc : c.Legal) {i : Instr} (hwf : i.wf c = true) {fe tf : Nat} {s : State}
    (h : WindowFollows c fe tf s) : WindowFollows c fe tf (handler c i s) := by
  by_cases hdata : ∃ hd a x p, i = .frameRxData hd a x p
  · obtain ⟨hd, a, x, p, rfl⟩ := hdata
    exact (h.dataArrive hc x p).of_keepsWindow (.of_leavesReceiver (.ackRelease c a _))
  · exact h.of_keepsWindow (handler_keepsWindow hwf (fun hd a x p e => hdata ⟨hd, a, x, p, e⟩) s)

/-! ### A pending NAK -/

/-- In the course of an event that found a NAK pending and `fe` expected: none has been transmitted, and it is pending still
unless the lower edge has moved. -/
structure HoldsNak (c : Config) (fe : Nat) (s : State) : Prop where
  silent : ∀ a, Command.tx (encodeFrame c (.nak a)) ∉ s.out
  pending : s.noNak = true → s.frameExpected ≠ fe

namespace HoldsNak

variable {c : Config} {fe : Nat} {s u : State}

/-- Operations that keep the two registers and transmit frames of other kinds only (R74). -/
theorem append (h : HoldsNak c fe s) {ks : List Command} (hnak : u.noNak = s.noNak)
    (hfe : u.frameExpected = s.frameExpected) (hout : u.out = s.out ++ ks)
    (hks : ∀ b, .tx b ∈ ks → byteAt b 0 ≠ c.kindNak) : HoldsNak c fe u := by
  refine ⟨fun a ha => ?_, by rw [hnak, hfe]; exact h.pending⟩
  rw [hout] at ha
  rcases List.mem_append.mp ha with ha | ha
  · exact h.silent a ha
  · exact hks _ ha rfl

theorem emit (h : HoldsNak c fe s) {k : Command} (hk : k.isTx = false) : HoldsNak c fe (emit k s) :=
  h.append rfl rfl rfl fun b hb => by rw [← List.mem_singleton.mp hb] at hk; cases hk

theorem sendAck (hc : c.Legal) (h : HoldsNak c fe s) : HoldsNak c fe (sendAck c s) :=
  h.append rfl rfl rfl fun b hb => by
    cases List.mem_singleton.mp hb
    exact hc.ack_ne_nak

/-- R140: a DATA frame, whatever other commands go with it. -/
theorem appendData (hc : c.Legal) (h : HoldsNak c fe s) {a x : Nat} {p : Packet} {ks : List Command}
    (hnak : u.noNak = s.noNak) (hfe : u.frameExpected = s.frameExpected) (hout : u.out = s.out ++ ks)
    (hks : ∀ b, .tx b ∈ ks → b = encodeFrame c (.data a x p)) : HoldsNak c fe u :=
  h.append hnak hfe hout fun b hb => by
    rw [hks b hb]
    exact hc.data_ne_nak

theorem retransmit (hc : c.Legal) (h : HoldsNak c fe s) (x : Nat) : HoldsNak c fe (retransmit c x s) := by
  rw [retransmit_eq]
  exact h.appendData hc rfl rfl rfl fun b hb => by simpa [dataFrameBytes] using hb

theorem admitPacket (hc : c.Legal) (h : HoldsNak c fe s) (p : Packet) : HoldsNak c fe (admitPacket c p s) := by
  rcases admitPacket_cases c p s with ⟨-, e⟩ | ⟨-, -, e⟩ | ⟨-, -, e⟩ <;> rw [e]
  · exact ⟨h.silent, h.pending⟩
  · exact ⟨h.silent, h.pending⟩
  · simp only [admitEffects, sendData_eq]
    exact h.appendData hc rfl rfl rfl fun b hb => by simpa [dataFrameBytes] using hb

theorem timeoutRetransmit (hc : c.Legal) (h : HoldsNak c fe s) : HoldsNak c fe (timeoutRetransmit c s) := by
  rcases timeoutRetransmit_cases c s with ⟨-, e⟩ | ⟨x, rest, -, e⟩ <;> rw [e]
  · exact ⟨h.silent, h.pending⟩
  · exact h.retransmit hc x

theorem nakRetransmit (hc : c.Legal) (h : HoldsNak c fe s) (a : Nat) : HoldsNak c fe (nakRetransmit c a s) := by
  rcases nakRetransmit_cases c a s with ⟨-, e⟩ | ⟨-, e⟩ <;> rw [e]
  · exact h.retransmit hc _
  · exact h

/-- R142: a release transmits nothing. -/
theorem ackRelease (h : HoldsNak c fe s) (a : Nat) : HoldsNak c fe (ackRelease c a s) :=
  ackRelease_induction h fun _ hu _ => hu.append rfl rfl rfl (by simp)

/-- R160 to R163: with a NAK pending a DATA frame draws none, and the drain makes one possible again only as it moves the lower
edge. -/
theorem dataArrive (hc : c.Legal) (h : HoldsNak c s.frameExpected s) (hf : s.frameExpected < c.M) (ht : s.tooFar < c.M)
    (hnak : s.noNak = false) (x : Nat) (p : Packet) : HoldsNak c s.frameExpected (dataArrive c x p s) := by
  have hdelay : nakOrDelay c x s = Machine.emit .startAckTimer s := if_neg fun h => by simp [hnak] at h
  rw [Machine.dataArrive, hdelay]
  refine ⟨fun a ha => (h.emit (k := .startAckTimer) rfl).silent a (tx_mem_of_mem_acceptFrame ha), ?_⟩
  obtain ⟨k, v, hk, he, hvf, -, hvn, -⟩ := exists_acceptFrame_eq_drainMany hc x p (s := Machine.emit .startAckTimer s) hf ht
  have hM := hc.M_eq
  have hW := hc.W_pos
  simp only [he, drainMany, hvf, hvn, emit_fields, hnak, Bool.false_or, decide_eq_true_eq]
  intro hpos
  rw [seqPlus_eq hf (by omega)]
  split_ifs <;> omega

end HoldsNak

/-- R165, R180: the handler of every well-formed event that finds a NAK pending. -/
theorem handler_holdsNak {c : Config} (hc : c.Legal) {i : Instr} (hwf : i.wf c = true) {s : State}
    (hf : s.frameExpected < c.M) (ht : s.tooFar < c.M) (hnak : s.noNak = false) (h : HoldsNak c s.frameExpected s) :
    HoldsNak c s.frameExpected (handler c i s) := by
  cases i with
  | netReady _ p => exact h.admitPacket hc p
  | frameRx _ b =>
    have herror : decodeErrorArrive c s = s := if_neg (Bool.eq_false_iff.mp hnak)
    exact frameReceived_of_wf hwf h (herror.symm ▸ h)
  | dataTimeout _ => exact h.timeoutRetransmit hc
  | ackTimeout _ => exact h.sendAck hc
  | frameRxData _ a x p => exact (h.dataArrive hc hf ht hnak x p).ackRelease a
  | frameRxAck _ a => exact h.ackRelease a
  | frameRxNak _ a => exact (h.ackRelease a).nakRetransmit hc a
  | phyReady _ => exact h
  | reservedEvent5 _ _ => exact h
  | reservedEvent6 _ _ => exact h
  | reservedEvent7 _ _ => exact h

end Sys2Proof.Machine
end

section
/-! The obligations of the receiver window family. -/

open Sys2Proof Sys2Proof.Machine
open Sys2Proof.Config (hw)

/-- Settles O28: the drain makes one round for the expected frame and one for each packet buffered behind it. -/
theorem expectedDataFrameEvent : Obligations.ExpectedDataFrameEvent := by
  intro h a p s hs hrun ha
  obtain ⟨-, hrecv, -⟩ := inv_iff.mp hs
  obtain ⟨k, hk⟩ := exists_drainRounds (c := hw) hw.W (bufferFrame hw s.frameExpected p (beginEvent s))
  obtain ⟨hk0, hle, hset, hfree⟩ := rounds_of_drainRounds_bufferFrame Config.hw_legal hrecv.beginEvent p hk
  have hexec := exec_frameRxData_eq (h := h) hs.toWf hrun ha
    (dataArrive_frameExpected Config.hw_legal hrecv.beginEvent p hk)
  exact ⟨k, _, hk0, hle, hset, hfree, hexec, rfl, rfl, rfl,
    arrivedBit_clearRun_bufferFrame hrecv.beginEvent hk0, rfl, rfl, rfl, rfl, rfl, rfl, rfl, rfl, rfl, rfl⟩

/-- Settles O29: the frame is answered and buffered, and the expected slot stays free, so that nothing is drained. -/
theorem outOfOrderDataFrameEvent : Obligations.OutOfOrderDataFrameEvent := by
  intro h a x p s hs hrun ha hx hne hin hnew
  obtain ⟨-, hrecv, -⟩ := inv_iff.mp hs
  have harrive := dataArrive_of_ahead Config.hw_legal hrecv.beginEvent hx hne hin hnew p
  rw [nakOrDelay_of_ne (s := beginEvent s) hne, bufferFrame_eq] at harrive
  exact exec_frameRxData_eq hs.toWf hrun ha harrive

/-- Settles O30: the frame is only answered. -/
theorem droppedDataFrameEvent : Obligations.DroppedDataFrameEvent := by
  intro h a x p s hs hrun ha hne hdrop
  have harrive : dataArrive hw x p (beginEvent s) = nakOrDelay hw x (beginEvent s) := dataArrive_of_refuses hdrop
  rw [nakOrDelay_of_ne (s := beginEvent s) hne] at harrive
  exact exec_frameRxData_eq hs hrun ha harrive

/-- Settles O23: the handler of a byte string of which no frame can be read answers it, if at all, with a NAK. -/
theorem decodeErrorEvent : Obligations.DecodeErrorEvent := by
  intro h b e s hrun hb
  have hhalted : s.faultReg.halted = false := hrun
  have hhandler : handler hw (.frameRx h b) (beginEvent s) = _ :=
    (frameReceived_of_decodeError hb _).trans (decodeErrorArrive_eq hw (beginEvent s))
  rw [exec_of_handler_eq rfl hrun hhandler]
  simp only [beginEvent_fields, hhalted, List.nil_append]
  rfl

/-- Settles O41: with a NAK pending no operation sends one, and only a drain, which moves the lower edge, ends that. -/
theorem noSecondNakForAGap : Obligations.NoSecondNakForAGap := by
  intro i s t hs hwf hnak h
  have hbegin : HoldsNak hw s.frameExpected (beginEvent s) :=
    ⟨fun _ => List.not_mem_nil, fun hset => absurd (hset.symm.trans hnak) (by decide)⟩
  have hhandled : HoldsNak hw s.frameExpected (handled i s) :=
    handled_of hbegin fun _ =>
      handler_holdsNak Config.hw_legal hwf (s := beginEvent s) hs.frameExpected_lt hs.tooFar_lt hnak hbegin
  have hcore : HoldsNak hw s.frameExpected (coreAfter i s) := by
    rw [coreAfter_eq]
    exact hhandled.emit (gateCommand_isTx _ _ _ _)
  rw [exec_eq_next h]
  exact ⟨hcore.silent, hcore.pending⟩

/-- Settles O42: the first copy leaves its number refused, so that the second is only answered. -/
theorem duplicateDataFrameIsDeliveredOnce : Obligations.DuplicateDataFrameIsDeliveredOnce := by
  intro h h' a a' x p p' s t u hs hrun hx _ ht hu
  obtain ⟨-, hrecv, -⟩ := inv_iff.mp hs
  have hfirst : Refuses hw x (coreAfter (.frameRxData h a x p) s) := by
    refine Refuses.of_keepsWindow ?_ (keepsWindow_coreAfter _ s)
    rw [handled_of_running hrun]
    exact (refuses_dataArrive Config.hw_legal hrecv.beginEvent hx p).of_keepsWindow
      (.of_leavesReceiver (.ackRelease hw a _))
  have hrefused : Refuses hw x (beginEvent t) := by
    rw [exec_eq_next ht]
    exact hfirst
  have hhandler : KeepsWindow (beginEvent t) (handler hw (.frameRxData h' a' x p') (beginEvent t)) := by
    simp only [handler, frameArrive, dataArrive_of_refuses hrefused]
    exact (KeepsWindow.nakOrDelay hw x _).trans (.of_leavesReceiver (.ackRelease hw a' _))
  have hcore : KeepsWindow (beginEvent t) (coreAfter (.frameRxData h' a' x p') t) :=
    (handled_of (.refl _) fun _ => hhandler).trans (keepsWindow_coreAfter _ t)
  rw [exec_eq_next hu]
  exact ⟨hcore.countP_isDeliver, hcore.frameExpected, hcore.tooFar, hcore.arrived, hcore.inBuf⟩

/-- Settles O45: a drain delivers one packet a round, and no other operation delivers one or moves the window. -/
theorem windowAdvancesByTheDeliveries : Obligations.WindowAdvancesByTheDeliveries := by
  intro i s t hs hwf h
  have hbegin : WindowFollows hw s.frameExpected s.tooFar (beginEvent s) :=
    ⟨(seqPlus_zero hs.frameExpected_lt).symm, (seqPlus_zero hs.tooFar_lt).symm⟩
  have hcore : WindowFollows hw s.frameExpected s.tooFar (coreAfter i s) :=
    (handled_of hbegin fun _ => handler_windowFollows Config.hw_legal hwf hbegin).of_keepsWindow (keepsWindow_coreAfter i s)
  rw [exec_eq_next h]
  exact ⟨hcore.frameExpected, hcore.tooFar⟩

end

section
/-! How many frames the operations of an event transmit, for every value of the registers (R182). -/

namespace Sys2Proof.Machine

open Sys2Proof
open Sys2Proof.Config (hw)

/-- `u` comes from `s` by operations that transmit at most `n` frames. -/
def TransmitsAtMost (n : Nat) (s u : State) : Prop :=
  u.out.countP Command.isTx ≤ s.out.countP Command.isTx + n

namespace TransmitsAtMost

variable {m n : Nat} {s u v : State}

theorem refl (n : Nat) (s : State) : TransmitsAtMost n s s := Nat.le_add_right _ n

theorem trans (h : TransmitsAtMost m s u) (h' : TransmitsAtMost n u v) : TransmitsAtMost (m + n) s v := by
  unfold TransmitsAtMost at h h' ⊢
  omega

/-- Operations that add the commands `ks`. -/
theorem append {ks : List Command} (hout : u.out = s.out ++ ks) (hks : ks.countP Command.isTx ≤ n) :
    TransmitsAtMost n s u := by
  unfold TransmitsAtMost
  rw [hout, List.countP_append]
  exact Nat.add_le_add_left hks _

/-! ### The sender's operations -/

variable (c : Config)

theorem retransmit (x : Nat) (s : State) : TransmitsAtMost 1 s (retransmit c x s) := by
  rw [retransmit_eq]
  exact append rfl (Nat.le_refl 1)

theorem admitPacket (p : Packet) (s : State) : TransmitsAtMost 1 s (admitPacket c p s) := by
  rcases admitPacket_cases c p s with ⟨-, e⟩ | ⟨-, -, e⟩ | ⟨-, -, e⟩ <;> rw [e]
  · exact refl 1 s
  · exact refl 1 s
  · simp only [admitEffects, sendData_eq]
    exact append rfl (Nat.le_refl 1)

theorem timeoutRetransmit (s : State) : TransmitsAtMost 1 s (timeoutRetransmit c s) := by
  rcases timeoutRetransmit_cases c s with ⟨-, e⟩ | ⟨x, rest, -, e⟩ <;> rw [e]
  · exact refl 1 s
  · exact retransmit c x s

theorem nakRetransmit (a : Nat) (s : State) : TransmitsAtMost 1 s (nakRetransmit c a s) := by
  rcases nakRetransmit_cases c a s with ⟨-, e⟩ | ⟨-, e⟩ <;> rw [e]
  · exact retransmit c _ s
  · exact refl 1 s

/-- R142: a round of a release emits a STOP_TIMER. -/
theorem releaseOne (s : State) : TransmitsAtMost 0 s (releaseOne c s) := append rfl (Nat.le_refl 0)

theorem ackRelease (a : Nat) (s : State) : TransmitsAtMost 0 s (ackRelease c a s) :=
  ackRelease_induction (refl 0 s) fun u hu _ => hu.trans (releaseOne c u)

/-! ### The receiver's operations -/

theorem sendAck (s : State) : TransmitsAtMost 1 s (sendAck c s) := append rfl (Nat.le_refl 1)

theorem sendNak (s : State) : TransmitsAtMost 1 s (sendNak c s) := append rfl (Nat.le_refl 1)

theorem decodeErrorArrive (s : State) : TransmitsAtMost 1 s (decodeErrorArrive c s) := by
  unfold Machine.decodeErrorArrive
  split
  · exact sendNak c s
  · exact refl 1 s

theorem nakOrDelay (x : Nat) (s : State) : TransmitsAtMost 1 s (nakOrDelay c x s) := by
  rcases nakOrDelay_cases c x s with ⟨-, -, e⟩ | ⟨-, e⟩ <;> rw [e]
  · exact sendNak c s
  · exact append rfl (Nat.zero_le 1)

/-- R162: a drain emits DELIVER and START_ACK_TIMER only. -/
theorem acceptFrame (x : Nat) (p : Packet) (s : State) : TransmitsAtMost 0 s (acceptFrame c x p s) := by
  rcases acceptFrame_cases c x p s with ⟨-, -, e⟩ | ⟨-, e⟩ <;> rw [e]
  · obtain ⟨fe, tf, ar, nn, st, hd, hdrain⟩ := drainLoop_frame c c.W (bufferFrame c x p s)
    have hnone : st.countP Command.isTx = 0 := List.countP_eq_zero.mpr fun k hk htx => by
      cases k with
      | tx _ => cases hdrain _ hk
      | _ => cases htx
    rw [drain, hd]
    exact append rfl hnone.le
  · exact refl 0 s

theorem dataArrive (x : Nat) (p : Packet) (s : State) : TransmitsAtMost 1 s (dataArrive c x p s) :=
  (nakOrDelay c x s).trans (acceptFrame c x p _)

/-! ### The handlers -/

/-- R193: the acknowledgement transmits nothing, so that a DATA frame draws at most a NAK and a NAK frame at most a DATA frame. -/
theorem frameArrive (f : Frame) (s : State) : TransmitsAtMost 1 s (frameArrive c f s) := by
  cases f with
  | data a x p => exact (dataArrive c x p s).trans (ackRelease c a _)
  | ack a => exact (ackRelease c a s).trans (refl 1 _)
  | nak a => exact (ackRelease c a s).trans (nakRetransmit c a _)

theorem frameReceived (b : Bytes) (s : State) : TransmitsAtMost 1 s (frameReceived c b s) := by
  unfold Machine.frameReceived
  cases decodeAndValidate c b with
  | ok f => exact frameArrive c f s
  | decodeError _ => exact decodeErrorArrive c s
  | malformed _ => exact refl 1 s

theorem handler (i : Instr) (s : State) : TransmitsAtMost 1 s (handler c i s) := by
  cases i with
  | netReady _ p => exact admitPacket c p s
  | frameRx _ b => exact frameReceived c b s
  | dataTimeout _ => exact timeoutRetransmit c s
  | ackTimeout _ => exact sendAck c s
  | frameRxData _ a x p => exact frameArrive c (.data a x p) s
  | frameRxAck _ a => exact frameArrive c (.ack a) s
  | frameRxNak _ a => exact frameArrive c (.nak a) s
  | phyReady _ => exact refl 1 s
  | reservedEvent5 _ _ => exact refl 1 s
  | reservedEvent6 _ _ => exact refl 1 s
  | reservedEvent7 _ _ => exact refl 1 s

end TransmitsAtMost

/-- R190, R196: an event transmits no more than its handler does, since the gate command is no TX. -/
theorem exec_countP_isTx_le {n : Nat} {i : Instr} {s t : State} (h : exec i s = .next t)
    (hhandler : TransmitsAtMost n (beginEvent s) (handler hw i (beginEvent s))) :
    t.out.countP Command.isTx ≤ n := by
  have hhandled : TransmitsAtMost n (beginEvent s) (handled i s) := handled_of (.refl n _) fun _ => hhandler
  rw [exec_eq_next h, coreAfter_eq]
  simpa [TransmitsAtMost, gateCommand_isTx] using hhandled

end Sys2Proof.Machine
end

section
/-! The obligations of the ack arbiter family. -/

open Sys2Proof Sys2Proof.Machine
open Sys2Proof.Config (hw)

/-- Settles O31: an ACK frame is the release alone; a DATA frame's arrival before it and a NAK frame's retransmission after it
write neither the window's edges nor the count nor an outbound packet. -/
theorem everyFrameKindAcknowledges : Obligations.EveryFrameKindAcknowledges := by
  intro h a x p s hs hrun ha i hi
  simp only [List.mem_cons, List.not_mem_nil, or_false] at hi
  rcases hi with rfl | rfl | rfl
  · obtain ⟨hnext, hbuf, -⟩ := AdmissionUntouched.dataArrive hw x p (beginEvent s)
    exact ⟨_, exec_frameRxData_eq hs hrun ha rfl, rfl, rfl, hnext, hbuf⟩
  · exact ⟨_, ackFrameEvent h a s hs hrun ha, rfl, rfl, rfl, rfl⟩
  · exact ⟨_, nakFrameEvent h a s hs hrun ha, rfl, rfl, rfl, rfl⟩

/-- Settles O35: no handler transmits more than one frame; the three of the second part transmit none. -/
theorem atMostOneFramePerEvent : Obligations.AtMostOneFramePerEvent := by
  intro i s t h
  refine ⟨exec_countP_isTx_le h (.handler hw i _), fun hi => Nat.le_zero.mp (exec_countP_isTx_le h ?_)⟩
  rcases hi with ⟨hd, rfl⟩ | ⟨hd, a, rfl⟩ | ⟨hd, b, e, rfl, hb⟩
  · exact .refl 0 _
  · exact .ackRelease hw a _
  · have hdiscard : handler hw (.frameRx hd b) (beginEvent s) = beginEvent s := frameReceived_of_malformed hb _
    rw [hdiscard]
    exact .refl 0 _

/-- Settles O21: the handler emits the one TX and writes no register. -/
theorem ackTimeoutEvent : Obligations.AckTimeoutEvent := by
  intro h s hrun
  have hhalted : s.faultReg.halted = false := hrun
  have hack : handler hw (.ackTimeout h) (beginEvent s) =
      emit (.tx (encodeFrame hw (.ack (prev hw s.frameExpected)))) (beginEvent s) := rfl
  rw [exec_of_handler_eq rfl hrun hack]
  simp only [emit_fields, beginEvent_fields, hhalted, List.nil_append]
  rfl

end

section
/-! What the handlers add to the output list, as the codes of R84 and for every value of the registers (R140 to R145, R160 to
R165, R178), and how often a code is among them (R198). -/

namespace Sys2Proof.Machine

open Sys2Proof
open Sys2Proof.Config (hw)

/-- R36, R38: a window with a member has a frame in flight. -/
theorem SenderInv.nbuffered_pos {c : Config} {s : State} (h : SenderInv c s) {a : Nat}
    (hin : inWindow s.ackExpected a s.nextFrameToSend = true) : 0 < s.nbuffered := by
  rw [← h.ledger_length]
  exact List.length_pos_of_mem (h.ackExpected_mem hin)

/-- `u` comes from `s` by operations that add commands of the codes `ks`, in this order. -/
def Emits (ks : List Nat) (s u : State) : Prop := u.out.map Command.code = s.out.map Command.code ++ ks

/-- The codes of `k` rounds of a drain, a DELIVER and a START_ACK_TIMER each (R162). -/
def drainCodes (k : Nat) : List Nat := (List.replicate k [1, 4]).flatten

/-- The codes of `r` rounds of a release, a STOP_TIMER each (R142). -/
def releaseCodes (r : Nat) : List Nat := List.replicate r 3

namespace Emits

variable {c : Config} {s u v : State} {ks ls : List Nat}

theorem refl (s : State) : Emits [] s s := (List.append_nil _).symm

theorem trans (h : Emits ks s u) (h' : Emits ls u v) : Emits (ks ++ ls) s v := by
  unfold Emits at h h' ⊢
  rw [h', h, List.append_assoc]

theorem append {cs : List Command} (hout : u.out = s.out ++ cs) (hcs : cs.map Command.code = ks) : Emits ks s u := by
  rw [Emits, hout, List.map_append, hcs]

/-! ### The sender's operations -/

theorem retransmit (x : Nat) (s : State) : Emits [3, 0, 2, 5] s (retransmit c x s) := by
  rw [retransmit_eq]
  exact append rfl rfl

theorem admitPacket (p : Packet) (s : State) : ∃ ks ∈ [[], [0, 2, 5]], Emits ks s (admitPacket c p s) := by
  rcases admitPacket_cases c p s with ⟨-, e⟩ | ⟨-, -, e⟩ | ⟨-, -, e⟩ <;> rw [e]
  · exact ⟨[], by simp, refl s⟩
  · exact ⟨[], by simp, refl s⟩
  · simp only [admitEffects, sendData_eq]
    exact ⟨[0, 2, 5], by simp, append rfl rfl⟩

theorem timeoutRetransmit (s : State) : ∃ ks ∈ [[], [3, 0, 2, 5]], Emits ks s (timeoutRetransmit c s) := by
  rcases timeoutRetransmit_cases c s with ⟨-, e⟩ | ⟨x, rest, -, e⟩ <;> rw [e]
  · exact ⟨[], by simp, refl s⟩
  · exact ⟨_, by simp, retransmit x s⟩

theorem nakRetransmit (a : Nat) (s : State) : ∃ ks ∈ [[], [3, 0, 2, 5]], Emits ks s (nakRetransmit c a s) := by
  rcases nakRetransmit_cases c a s with ⟨-, e⟩ | ⟨-, e⟩ <;> rw [e]
  · exact ⟨_, by simp, retransmit _ s⟩
  · exact ⟨[], by simp, refl s⟩

/-! ### The receiver's operations -/

theorem sendAck (s : State) : Emits [0] s (sendAck c s) := append rfl rfl

theorem sendNak (s : State) : Emits [0] s (sendNak c s) := append rfl rfl

theorem decodeErrorArrive (s : State) : ∃ ks ∈ [[], [0]], Emits ks s (decodeErrorArrive c s) := by
  unfold Machine.decodeErrorArrive
  split
  · exact ⟨_, by simp, sendNak s⟩
  · exact ⟨[], by simp, refl s⟩

theorem nakOrDelay (x : Nat) (s : State) : ∃ k ∈ [0, 4], Emits [k] s (nakOrDelay c x s) := by
  rcases nakOrDelay_cases c x s with ⟨-, -, e⟩ | ⟨-, e⟩ <;> rw [e]
  · exact ⟨0, by simp, sendNak s⟩
  · exact ⟨4, by simp, append rfl rfl⟩

theorem drainLoop (fuel : Nat) (s : State) : ∃ k ≤ fuel, Emits (drainCodes k) s (drainLoop c fuel s) := by
  induction fuel generalizing s with
  | zero => exact ⟨0, Nat.le_refl 0, refl s⟩
  | succ n ih =>
    unfold Machine.drainLoop
    split
    · obtain ⟨k, hk, hrounds⟩ := ih (drainOne c s)
      have hround : Emits [1, 4] s (drainOne c s) := by
        rw [drainOne_eq]
        exact append rfl rfl
      exact ⟨k + 1, Nat.succ_le_succ hk, hround.trans hrounds⟩
    · exact ⟨0, Nat.zero_le _, refl s⟩

theorem acceptFrame (x : Nat) (p : Packet) (s : State) : ∃ k ≤ c.W, Emits (drainCodes k) s (acceptFrame c x p s) := by
  rcases acceptFrame_cases c x p s with ⟨-, -, e⟩ | ⟨-, e⟩ <;> rw [e]
  · exact drainLoop c.W (bufferFrame c x p s)
  · exact ⟨0, Nat.zero_le _, refl s⟩

end Emits

/-! ### The release -/

/-- `u` comes from `s` by `r` rounds of a release, each of which takes a frame out of flight (R142). -/
structure Released (c : Config) (r : Nat) (s u : State) : Prop where
  emits : Emits (releaseCodes r) s u
  counted : SenderInv c s → SenderInv c u ∧ u.nbuffered + r = s.nbuffered

namespace Released

variable {c : Config} {r : Nat} {s u : State}

theorem refl (s : State) : Released c 0 s s := ⟨.refl s, fun h => ⟨h, rfl⟩⟩

theorem releaseOne (hc : c.Legal) (h : Released c r s u) {a : Nat}
    (hin : inWindow u.ackExpected a u.nextFrameToSend = true) : Released c (r + 1) s (releaseOne c u) := by
  constructor
  · rw [releaseCodes, List.replicate_succ']
    exact h.emits.trans (.append rfl rfl)
  · intro hs
    obtain ⟨hu, hcount⟩ := h.counted hs
    have hpos := hu.nbuffered_pos hin
    refine ⟨hu.releaseOne hc hin, ?_⟩
    rw [releaseOne_eq]
    simp only
    omega

/-- R142, R198: no more frames are in flight than a full window has. -/
theorem rounds_le (h : Released c r s u) (hs : SenderInv c s) : r ≤ c.W := by
  have hcount := (h.counted hs).2
  have hle := hs.nbuffered_le
  omega

end Released

theorem exists_released_ackRelease {c : Config} (hc : c.Legal) (a : Nat) (s : State) :
    ∃ r, Released c r s (ackRelease c a s) :=
  ackRelease_induction (R := fun u => ∃ r, Released c r s u) ⟨0, .refl s⟩ fun _ ⟨r, hu⟩ hin => ⟨r + 1, hu.releaseOne hc hin⟩

/-! ### The handlers -/

/-- The codes of the commands that one handler can emit, `r` of them from the rounds of a release (R191 to R195). -/
inductive HandlerCodes (c : Config) : Nat → List Nat → Prop
  /-- Nothing, an ACK or a NAK frame alone (R164, R178), or an admission (R141). -/
  | single {ks : List Nat} : ks ∈ [[], [0], [0, 2, 5]] → HandlerCodes c 0 ks
  /-- A release, a retransmission, or the one before the other (R142 to R145). -/
  | release (r : Nat) {ks : List Nat} : ks ∈ [[], [3, 0, 2, 5]] → HandlerCodes c r (releaseCodes r ++ ks)
  /-- A NAK frame or the ack-delay timer, a drain, and the release behind it (R160 to R163). -/
  | arrival {k₀ k : Nat} (r : Nat) : k₀ ∈ [0, 4] → k ≤ c.W → HandlerCodes c r ([k₀] ++ drainCodes k ++ releaseCodes r)

/-- The commands that lead from `s` to `u` are those of one handler; on a sender that meets its invariants the release among them
has at most W rounds. -/
def EmitsAsHandler (c : Config) (s u : State) : Prop :=
  ∃ r ks, HandlerCodes c r ks ∧ Emits ks s u ∧ (SenderInv c s → r ≤ c.W)

namespace EmitsAsHandler

variable {c : Config} {s u : State}

theorem of_single (h : ∃ ks ∈ [[], [0], [0, 2, 5]], Emits ks s u) : EmitsAsHandler c s u := by
  obtain ⟨ks, hks, hu⟩ := h
  exact ⟨0, ks, .single hks, hu, fun _ => Nat.zero_le _⟩

theorem refl (s : State) : EmitsAsHandler c s s := of_single ⟨[], by simp, .refl s⟩

theorem admitPacket (p : Packet) (s : State) : EmitsAsHandler c s (admitPacket c p s) := by
  obtain ⟨ks, hks, hu⟩ := Emits.admitPacket (c := c) p s
  exact of_single ⟨ks, by fin_cases hks <;> simp, hu⟩

theorem sendAck (s : State) : EmitsAsHandler c s (sendAck c s) := of_single ⟨[0], by simp, .sendAck s⟩

theorem decodeErrorArrive (s : State) : EmitsAsHandler c s (decodeErrorArrive c s) := by
  obtain ⟨ks, hks, hu⟩ := Emits.decodeErrorArrive (c := c) s
  exact of_single ⟨ks, by fin_cases hks <;> simp, hu⟩

theorem timeoutRetransmit (s : State) : EmitsAsHandler c s (timeoutRetransmit c s) := by
  obtain ⟨ks, hks, hu⟩ := Emits.timeoutRetransmit (c := c) s
  exact ⟨0, _, .release 0 hks, hu, fun _ => Nat.zero_le _⟩

theorem frameArrive (hc : c.Legal) (f : Frame) (s : State) : EmitsAsHandler c s (frameArrive c f s) := by
  cases f with
  | data a x p =>
    obtain ⟨k₀, hk₀, hanswer⟩ := Emits.nakOrDelay (c := c) x s
    obtain ⟨k, hk, hdrain⟩ := Emits.acceptFrame (c := c) x p (nakOrDelay c x s)
    obtain ⟨r, hrelease⟩ := exists_released_ackRelease hc a (dataArrive c x p s)
    exact ⟨r, _, .arrival r hk₀ hk, (hanswer.trans hdrain).trans hrelease.emits, fun h =>
      hrelease.rounds_le (h.congr (LeavesSender.dataArrive hc x p s).toSameSender)⟩
  | ack a =>
    obtain ⟨r, hrelease⟩ := exists_released_ackRelease hc a s
    exact ⟨r, _, .release r (by simp), hrelease.emits.trans (.refl _), hrelease.rounds_le⟩
  | nak a =>
    obtain ⟨r, hrelease⟩ := exists_released_ackRelease hc a s
    obtain ⟨ks, hks, hnak⟩ := Emits.nakRetransmit (c := c) a (ackRelease c a s)
    exact ⟨r, _, .release r hks, hrelease.emits.trans hnak, hrelease.rounds_le⟩

theorem frameReceived (hc : c.Legal) (b : Bytes) (s : State) : EmitsAsHandler c s (frameReceived c b s) := by
  unfold Machine.frameReceived
  cases decodeAndValidate c b with
  | ok f => exact frameArrive hc f s
  | decodeError _ => exact decodeErrorArrive s
  | malformed _ => exact refl s

theorem handler (hc : c.Legal) (i : Instr) (s : State) : EmitsAsHandler c s (handler c i s) := by
  cases i with
  | netReady _ p => exact admitPacket p s
  | frameRx _ b => exact frameReceived hc b s
  | dataTimeout _ => exact timeoutRetransmit s
  | ackTimeout _ => exact sendAck s
  | frameRxData _ a x p => exact frameArrive hc (.data a x p) s
  | frameRxAck _ a => exact frameArrive hc (.ack a) s
  | frameRxNak _ a => exact frameArrive hc (.nak a) s
  | phyReady _ => exact refl s
  | reservedEvent5 _ _ => exact refl s
  | reservedEvent6 _ _ => exact refl s
  | reservedEvent7 _ _ => exact refl s

end EmitsAsHandler

/-! ### How often a code is among them -/

theorem count_drainCodes (j k : Nat) : (drainCodes k).count j = k * [1, 4].count j := by
  simp [drainCodes, List.count_flatten]

theorem count_releaseCodes (j r : Nat) : (releaseCodes r).count j = if j = 3 then r else 0 := by
  by_cases hj : j = 3
  · rw [if_pos hj, hj]
    exact List.count_replicate_self
  · rw [if_neg hj]
    exact List.count_eq_zero.mpr fun hmem => hj (List.eq_of_mem_replicate hmem)

/-- R198: the bounds, each by its code; the two codes of the gate are not among them (R196). -/
theorem HandlerCodes.count_le {c : Config} {r : Nat} {ks : List Nat} (h : HandlerCodes c r ks) :
    ks.count 0 ≤ 1 ∧ ks.count 1 ≤ c.W ∧ ks.count 2 ≤ 1 ∧ ks.count 3 ≤ r + 1 ∧ ks.count 4 ≤ c.W + 1 ∧ ks.count 5 ≤ 1 ∧
      ks.count 6 = 0 ∧ ks.count 7 = 0 := by
  cases h with
  | single hks => fin_cases hks <;> simp
  | release r hks => fin_cases hks <;> simp [count_releaseCodes]
  | arrival r hk₀ hk =>
    fin_cases hk₀ <;> simp [count_releaseCodes, count_drainCodes, hk]
    omega

/-! ### The event -/

/-- R190: what `handled` leaves in the output list is what one handler can emit. -/
theorem exists_handled_codes (i : Instr) (s : State) :
    ∃ r, HandlerCodes hw r ((handled i s).out.map Command.code) ∧ (SenderInv hw s → r ≤ hw.W) := by
  have hemits : EmitsAsHandler hw (beginEvent s) (handled i s) :=
    handled_of (.refl _) fun _ => .handler Config.hw_legal i _
  obtain ⟨r, ks, hks, hout, hr⟩ := hemits
  have hout' : (handled i s).out.map Command.code = ks := hout
  exact ⟨r, hout' ▸ hks, fun h => hr (h.congr ⟨rfl, rfl, rfl, rfl, rfl⟩)⟩

/-- R84: counting the commands of one kind is counting their code. -/
theorem countP_eq_count_code {q : Command → Bool} {j : Nat} (hq : ∀ k, q k = (k.code == j)) (ks : List Command) :
    ks.countP q = (ks.map Command.code).count j := by
  rw [List.count, List.countP_map]
  exact congrArg (ks.countP ·) (funext hq)

/-- R84: the gate commands have the codes 6 and 7. -/
theorem isGate_eq (k : Command) : k.isGate = (k.code == 6 || k.code == 7) := by cases k <;> rfl

/-- R196: no handler emits a gate command. -/
theorem handled_isGate (i : Instr) (s : State) : ∀ k ∈ (handled i s).out, k.isGate = false := by
  intro k hk
  obtain ⟨r, hcodes, -⟩ := exists_handled_codes i s
  obtain ⟨-, -, -, -, -, -, hresume, hsuspend⟩ := hcodes.count_le
  have hcode := List.mem_map_of_mem (f := Command.code) hk
  have hne {j : Nat} (hj : List.count j ((handled i s).out.map Command.code) = 0) : k.code ≠ j :=
    fun e => List.count_eq_zero.mp hj (e ▸ hcode)
  simp [isGate_eq, hne hresume, hne hsuspend]

/-- R196: the command that the gate adds is a gate command. -/
theorem gateCommand_isGate (c : Config) (phl halted : Bool) (nbuffered : Nat) :
    (gateCommand c phl halted nbuffered).isGate = true := by
  unfold gateCommand
  split <;> rfl

/-- R190, R196: of a command that is no gate command an event emits as many as its handler. -/
theorem exec_countP_eq {i : Instr} {s t : State} (h : exec i s = .next t) {q : Command → Bool} {j : Nat}
    (hq : ∀ k, q k = (k.code == j)) (hj : j < 6) : t.out.countP q = ((handled i s).out.map Command.code).count j := by
  have hgate : q (gateCommand hw i.header.phl (handled i s).faultReg.halted (handled i s).nbuffered) = false := by
    rw [hq, gateCommand]
    split <;> simp [Command.code] <;> omega
  rw [exec_eq_next h, coreAfter_eq, ← countP_eq_count_code hq]
  simp [hgate]

/-- R197: a halted station does not run its handler. -/
theorem handled_of_halted {s : State} (h : s.faultReg.halted = true) (i : Instr) : handled i s = beginEvent s := if_pos h

/-- R192: a PHY_READY has no handler action. -/
theorem handled_phyReady (h : Header) (s : State) : handled (.phyReady h) s = beginEvent s := ite_self _

end Sys2Proof.Machine
end

section
/-! The obligations of the event loop family. -/

open Sys2Proof Sys2Proof.Machine
open Sys2Proof.Config (hw)

/-- Settles O34: an event ends with the gate's command, and no handler emits one. -/
theorem gateCommandEndsEveryEvent : Obligations.GateCommandEndsEveryEvent := by
  intro i s hi
  refine ⟨_, (handled i s).out, exec_of_isEvent hi s, ?_, handled_isGate i s⟩
  rw [coreAfter_eq]
  rfl

/-- Settles O36: the bounds of one handler, whose release has at most the W rounds of a full window, and the one gate command. -/
theorem outputsOfOneEventAreBounded : Obligations.OutputsOfOneEventAreBounded := by
  intro i s t hs _ h
  obtain ⟨hsend, -⟩ := inv_iff.mp hs
  obtain ⟨r, hcodes, hr⟩ := exists_handled_codes i s
  obtain ⟨htx, hdeliver, hstart, hstop, hstartAck, hstopAck, -, -⟩ := hcodes.count_le
  have hrounds : r ≤ 8 := hr hsend
  refine ⟨?_, ?_, ?_, ?_, ?_, ?_, ?_⟩
  · rwa [exec_countP_eq h (j := 0) (fun k => by cases k <;> rfl) (by decide)]
  · rwa [exec_countP_eq h (j := 1) (fun k => by cases k <;> rfl) (by decide)]
  · rw [exec_countP_eq h (j := 3) (fun k => by cases k <;> rfl) (by decide)]
    omega
  · rwa [exec_countP_eq h (j := 2) (fun k => by cases k <;> rfl) (by decide)]
  · rwa [List.count, exec_countP_eq h (j := 4) (fun k => by cases k <;> rfl) (by decide)]
  · rwa [List.count, exec_countP_eq h (j := 5) (fun k => by cases k <;> rfl) (by decide)]
  · have hnone : (handled i s).out.countP Command.isGate = 0 :=
      List.countP_eq_zero.mpr fun k hk => Bool.eq_false_iff.mp (handled_isGate i s k hk)
    rw [exec_eq_next h, coreAfter_eq]
    simp [hnone, gateCommand_isGate]

/-- Settles O20: PHY_READY has no handler action, which leaves the gate command. -/
theorem phyReadyEvent : Obligations.PhyReadyEvent :=
  fun h s => exec_of_handled_eq_beginEvent rfl (handled_phyReady h s)

/-- Settles O32: no handler runs, and the gate of a halted station suspends admission. -/
theorem haltedCoreConsumesEveryEvent : Obligations.HaltedCoreConsumesEveryEvent := by
  intro i s hi hhalted
  have hgate : gateCommand hw i.header.phl s.faultReg.halted s.nbuffered = .suspendAdmission := by
    simp [gateCommand, hhalted]
  rw [exec_of_handled_eq_beginEvent hi (handled_of_halted hhalted i), hgate]

end

section
/-! The faults of an event, each with its condition (R214, R215), and the PHY_READYs that it and the collaborators make due
(R223). -/

namespace Sys2Proof.Machine

open Sys2Proof
open Sys2Proof.Config (hw)

/-! ### Faults -/

/-- R82: a reserved opcode has no next state. -/
theorem isEvent_of_exec_eq_next {i : Instr} {s t : State} (h : exec i s = .next t) : isEvent i = true := by
  cases i with
  | reservedEvent5 _ _ => cases h
  | reservedEvent6 _ _ => cases h
  | reservedEvent7 _ _ => cases h
  | _ => rfl

/-- R141, R145, R215: a handler that does not find what it has to raises the fault of its condition and does nothing else. -/
theorem exists_handler_eq_raiseFault {c : Config} {i : Instr} {s : State} (h : ¬FaultFree c s i) :
    ∃ k, handler c i s = raiseFault k s ∧
      (((∃ h p, i = .netReady h p) ∧ s.nbuffered = c.W ∧ k = .admissionOverrun) ∨
       ((∃ h p, i = .netReady h p) ∧ s.nbuffered ≠ c.W ∧ s.nextFrameToSend ∈ s.ledger ∧ k = .ledgerDoubleEntry) ∨
       ((∃ h, i = .dataTimeout h) ∧ s.ledger = [] ∧ k = .timeoutNoPending)) := by
  cases i with
  | netReady hd p =>
    rcases admitPacket_cases c p s with ⟨hfull, e⟩ | ⟨hroom, hdouble, e⟩ | ⟨hroom, hfresh, -⟩
    · exact ⟨_, e, .inl ⟨⟨hd, p, rfl⟩, hfull, rfl⟩⟩
    · exact ⟨_, e, .inr (.inl ⟨⟨hd, p, rfl⟩, hroom, hdouble, rfl⟩)⟩
    · exact absurd ⟨hroom, hfresh⟩ h
  | dataTimeout hd =>
    rcases timeoutRetransmit_cases c s with ⟨hempty, e⟩ | ⟨x, rest, hled, -⟩
    · exact ⟨_, e, .inr (.inr ⟨⟨hd, rfl⟩, hempty, rfl⟩)⟩
    · exact absurd (hled.trans_ne (List.cons_ne_nil x rest)) h
  | _ => exact absurd trivial h

/-! ### The readiness level -/

/-- R223: a level that was high cannot become true. -/
@[simp] theorem rise_of_high (now : Bool) : rise true now = 0 := rfl

/-- R223: a sight of the level makes a PHY_READY due if the level has become true. -/
theorem levelIs_phyDue (level : Bool) (e : Env) : (e.levelIs level).phyDue = e.phyDue + rise e.phlReady level := by
  unfold Env.levelIs rise
  cases level <;> cases e.phlReady <;> rfl

theorem sampled_phyDue (phl : Bool) (e : Env) : (e.sampled phl).phyDue = e.phyDue + rise e.phlReady phl :=
  levelIs_phyDue phl e

theorem elapse_phyDue (c : Config) (e : Env) : (e.elapse c).phyDue = e.phyDue + rise e.phlReady (e.elapse c).phlReady :=
  levelIs_phyDue (c.phyLevel e.moments) e

/-- R196, R223: after its delivery an event sees the level twice, as it is sampled and as the event ends. -/
theorem envAfter_phyDue (i : Instr) (ks : List Command) (e : Env) :
    (envAfter i ks e).phyDue = (eventDelivery i e).phyDue + rise (eventDelivery i e).phlReady i.header.phl +
      rise i.header.phl (envAfter i ks e).phlReady := by
  obtain ⟨-, -, -, hlevel, hdue⟩ := own_perform ks ((eventDelivery i e).sampled i.header.phl)
  obtain ⟨-, -, hsampled, -⟩ := sampled_fields i.header.phl (eventDelivery i e)
  rw [envAfter, elapse_phyDue, hlevel, hdue, sampled_phyDue, hsampled]

/-- R223: only the delivery of a PHY_READY is about the level. -/
theorem eventDelivery_level {i : Instr} (hphy : ∀ h, i ≠ .phyReady h) (e : Env) :
    (eventDelivery i e).phlReady = e.phlReady ∧ (eventDelivery i e).phyDue = e.phyDue := by
  cases i with
  | phyReady h => exact absurd rfl (hphy h)
  | _ => exact ⟨rfl, rfl⟩

/-- R223: with a PHY_READY due, its delivery takes it away and leaves the level. -/
theorem riseAnnounced_of_due {e : Env} (h : 0 < e.phyDue) : e.riseAnnounced = { e with phyDue := e.phyDue - 1 } := by
  simp [Env.riseAnnounced, h.ne']

/-- R223: with none due, the delivery of a PHY_READY finds the level high. -/
theorem riseAnnounced_of_none_due {e : Env} (h : e.phyDue = 0) : e.riseAnnounced = { e with phlReady := true } := by
  simp [Env.riseAnnounced, h]

/-- R33, R59: with nothing presented, a step that has a next state waits. -/
theorem eq_idle_of_step {s t : State} (hin : s.inbox = []) (h : step s = .next t) : t = idle hw s := by
  unfold step at h
  split at h
  next => cases h
  next =>
    rw [hin] at h
    cases h
    rfl

end Sys2Proof.Machine
end

section
/-! The obligations of the exceptions and of the reset and hazards families. -/

open Sys2Proof Sys2Proof.Machine
open Sys2Proof.Config (hw)

/-- Settles O33: an event that halts a running station has not found what its handler has to, and then the handler only raises the
fault. -/
theorem faultsArePreciseAndOfThreeCauses : Obligations.FaultsArePreciseAndOfThreeCauses := by
  intro i s t h hrun hhalt
  have hfault : ¬FaultFree hw (beginEvent s) i := fun hfree => hhalt (exec_running hrun hfree h)
  obtain ⟨k, hraise, hcause⟩ := exists_handler_eq_raiseFault hfault
  have hexec := exec_of_handler_eq_raiseFault (isEvent_of_exec_eq_next h) hrun hraise
  rw [h] at hexec
  cases hexec
  exact ⟨rfl, hcause⟩

/-- Settles O53: the sights of the level one by one, after what the delivery of a PHY_READY does. -/
theorem phyReadyIsDueForEveryRise : Obligations.PhyReadyIsDueForEveryRise := by
  refine ⟨fun i s t hphy h => ?_, fun h s t ht => ⟨fun hdue => ?_, fun hnone => ?_⟩, fun s t hin h => ?_, fun h e => ?_⟩
  · obtain ⟨hlevel, hdue⟩ := eventDelivery_level hphy s.env
    rw [exec_env h, envAfter_phyDue, hlevel, hdue]
  · rw [exec_env ht, envAfter_phyDue, eventDelivery, riseAnnounced_of_due hdue]
    rfl
  · rw [exec_env ht, envAfter_phyDue, eventDelivery, riseAnnounced_of_none_due hnone, hnone]
    simp [Instr.header]
  · rw [eq_idle_of_step hin h]
    exact elapse_phyDue hw s.env
  · simp [Env.allows]

/-- Settles O16: no output and no admission by evaluation, the retransmission timers slot by slot. -/
theorem resetEmitsNothing : Obligations.ResetEmitsNothing := ⟨rfl, rfl, rfl, armed_reset hw⟩

end
